-- ==== Sys2Proof/Word.lean ====
section
/-!
DEFINITION. The words of the hardware (00_scope.md rules R5 to R7): bytes, 16-bit words and the fields of an
instruction word, all unsigned bit vectors.
-/
namespace Sys2Proof

/-- A byte: a general register or a cell of memory (R5 REG_WIDTH, R50). -/
abbrev Byte := BitVec 8

/-- A 16-bit value: an instruction word, `pc`, `I` or a stack slot (R5, R23 to R25). -/
abbrev Word := BitVec 16

/-- The index of a general register: the field `x` or `y` of an instruction word (R9, R71). -/
abbrev RegIdx := BitVec 4

/-- A 4-bit immediate: the field `n`, a number of sprite rows (R71, R73). -/
abbrev Nibble := BitVec 4

/-- A 12-bit immediate: the field `nnn`, an absolute byte address (R71, R73). -/
abbrev Addr12 := BitVec 12

end Sys2Proof
end

