-- ==== Sys2Proof/Syntax.lean ====
section
/-!
DEFINITION. The 34 instructions of the opcode table (30_encoding.md rule R75), one constructor per row of
spec/opcode_table.json, in the table's order. Every operand has the width of its field (R71, R73), so no
constructor holds a value its encoding could not.
-/
namespace Sys2Proof

/-- An instruction with its field values. -/
inductive Instr where
  /-- 00E0 CLS (R160). -/
  | cls
  /-- 00EE RET (R101). -/
  | ret
  /-- 1NNN JP nnn (R102). -/
  | jp (nnn : Addr12)
  /-- 2NNN CALL nnn (R103). -/
  | call (nnn : Addr12)
  /-- 3XNN SE Vx, nn (R110). -/
  | seImm (x : RegIdx) (nn : Byte)
  /-- 4XNN SNE Vx, nn (R111). -/
  | sneImm (x : RegIdx) (nn : Byte)
  /-- 5XY0 SE Vx, Vy (R112). -/
  | seReg (x y : RegIdx)
  /-- 6XNN LD Vx, nn (R120). -/
  | ldImm (x : RegIdx) (nn : Byte)
  /-- 7XNN ADD Vx, nn (R121). -/
  | addImm (x : RegIdx) (nn : Byte)
  /-- 8XY0 LD Vx, Vy (R122). -/
  | ldReg (x y : RegIdx)
  /-- 8XY1 OR Vx, Vy (R123). -/
  | orReg (x y : RegIdx)
  /-- 8XY2 AND Vx, Vy (R124). -/
  | andReg (x y : RegIdx)
  /-- 8XY3 XOR Vx, Vy (R125). -/
  | xorReg (x y : RegIdx)
  /-- 8XY4 ADD Vx, Vy (R126). -/
  | addReg (x y : RegIdx)
  /-- 8XY5 SUB Vx, Vy (R127). -/
  | sub (x y : RegIdx)
  /-- 8XY6 SHR Vx (R128); `y` is decoded and ignored (R78). -/
  | shr (x y : RegIdx)
  /-- 8XY7 SUBN Vx, Vy (R129). -/
  | subn (x y : RegIdx)
  /-- 8XYE SHL Vx (R130); `y` is decoded and ignored (R78). -/
  | shl (x y : RegIdx)
  /-- 9XY0 SNE Vx, Vy (R113). -/
  | sneReg (x y : RegIdx)
  /-- ANNN LD I, nnn (R140). -/
  | ldI (nnn : Addr12)
  /-- BNNN JP V0, nnn (R104). -/
  | jpV0 (nnn : Addr12)
  /-- CXNN RND Vx, nn (R150). -/
  | rnd (x : RegIdx) (nn : Byte)
  /-- DXYN DRW Vx, Vy, n (R161). -/
  | drw (x y : RegIdx) (n : Nibble)
  /-- EX9E SKP Vx (R170). -/
  | skp (x : RegIdx)
  /-- EXA1 SKNP Vx (R171). -/
  | sknp (x : RegIdx)
  /-- FX07 LD Vx, DT (R180). -/
  | ldVxDt (x : RegIdx)
  /-- FX0A LD Vx, K (R172). -/
  | ldVxKey (x : RegIdx)
  /-- FX15 LD DT, Vx (R181). -/
  | ldDtVx (x : RegIdx)
  /-- FX18 LD ST, Vx (R182). -/
  | ldStVx (x : RegIdx)
  /-- FX1E ADD I, Vx (R141). -/
  | addI (x : RegIdx)
  /-- FX29 LD F, Vx (R142). -/
  | ldFont (x : RegIdx)
  /-- FX33 LD B, Vx (R143). -/
  | ldBcd (x : RegIdx)
  /-- FX55 LD [I], Vx (R144). -/
  | storeRegs (x : RegIdx)
  /-- FX65 LD Vx, [I] (R145). -/
  | loadRegs (x : RegIdx)
  deriving DecidableEq, Repr

end Sys2Proof
end

