-- ==== Sys2Proof/WellFormed.lean ====
section
/-!
DEFINITION. Which 16-bit words are well formed: the rows of the opcode map (30_encoding.md rule R75) as masks and
patterns, written apart from the decoder, so that each checks the other. An instruction TERM needs no check of
its own: each operand of `Instr` has exactly the width of its field (R71) and no operand value is reserved (R78),
so every term is well formed; the checks here are on words.
-/
namespace Sys2Proof

/-- One row of the opcode map: a word `w` is the instruction iff `w &&& mask = pat` (R75). -/
structure OpcodeRow where
  /-- The row's mnemonic in spec/opcode_table.json. -/
  mnemonic : String
  /-- The bits that are fixed. -/
  mask : Word
  /-- The values of the fixed bits. -/
  pat : Word
  deriving DecidableEq, Repr

/-- The row of the opcode map an instruction belongs to (R75). -/
def Instr.row : Instr → OpcodeRow
  | .cls => ⟨"CLS", 0xFFFF, 0x00E0⟩
  | .ret => ⟨"RET", 0xFFFF, 0x00EE⟩
  | .jp _ => ⟨"JP_nnn", 0xF000, 0x1000⟩
  | .call _ => ⟨"CALL_nnn", 0xF000, 0x2000⟩
  | .seImm _ _ => ⟨"SE_Vx__nn", 0xF000, 0x3000⟩
  | .sneImm _ _ => ⟨"SNE_Vx__nn", 0xF000, 0x4000⟩
  | .seReg _ _ => ⟨"SE_Vx__Vy", 0xF00F, 0x5000⟩
  | .ldImm _ _ => ⟨"LD_Vx__nn", 0xF000, 0x6000⟩
  | .addImm _ _ => ⟨"ADD_Vx__nn", 0xF000, 0x7000⟩
  | .ldReg _ _ => ⟨"LD_Vx__Vy", 0xF00F, 0x8000⟩
  | .orReg _ _ => ⟨"OR_Vx__Vy", 0xF00F, 0x8001⟩
  | .andReg _ _ => ⟨"AND_Vx__Vy", 0xF00F, 0x8002⟩
  | .xorReg _ _ => ⟨"XOR_Vx__Vy", 0xF00F, 0x8003⟩
  | .addReg _ _ => ⟨"ADD_Vx__Vy", 0xF00F, 0x8004⟩
  | .sub _ _ => ⟨"SUB_Vx__Vy", 0xF00F, 0x8005⟩
  | .shr _ _ => ⟨"SHR_Vx", 0xF00F, 0x8006⟩
  | .subn _ _ => ⟨"SUBN_Vx__Vy", 0xF00F, 0x8007⟩
  | .shl _ _ => ⟨"SHL_Vx", 0xF00F, 0x800E⟩
  | .sneReg _ _ => ⟨"SNE_Vx__Vy", 0xF00F, 0x9000⟩
  | .ldI _ => ⟨"LD_I__nnn", 0xF000, 0xA000⟩
  | .jpV0 _ => ⟨"JP_V0__nnn", 0xF000, 0xB000⟩
  | .rnd _ _ => ⟨"RND_Vx__nn", 0xF000, 0xC000⟩
  | .drw _ _ _ => ⟨"DRW_Vx__Vy__n", 0xF000, 0xD000⟩
  | .skp _ => ⟨"SKP_Vx", 0xF0FF, 0xE09E⟩
  | .sknp _ => ⟨"SKNP_Vx", 0xF0FF, 0xE0A1⟩
  | .ldVxDt _ => ⟨"LD_Vx__DT", 0xF0FF, 0xF007⟩
  | .ldVxKey _ => ⟨"LD_Vx__K", 0xF0FF, 0xF00A⟩
  | .ldDtVx _ => ⟨"LD_DT__Vx", 0xF0FF, 0xF015⟩
  | .ldStVx _ => ⟨"LD_ST__Vx", 0xF0FF, 0xF018⟩
  | .addI _ => ⟨"ADD_I__Vx", 0xF0FF, 0xF01E⟩
  | .ldFont _ => ⟨"LD_F__Vx", 0xF0FF, 0xF029⟩
  | .ldBcd _ => ⟨"LD_B__Vx", 0xF0FF, 0xF033⟩
  | .storeRegs _ => ⟨"LD__I___Vx", 0xF0FF, 0xF055⟩
  | .loadRegs _ => ⟨"LD_Vx___I", 0xF0FF, 0xF065⟩

/-- Rows of classes 0 to 7 (R76). -/
def opcodeRowsLow : List OpcodeRow :=
  [Instr.row .cls, Instr.row .ret, Instr.row (.jp 0),
   Instr.row (.call 0), Instr.row (.seImm 0 0), Instr.row (.sneImm 0 0),
   Instr.row (.seReg 0 0), Instr.row (.ldImm 0 0), Instr.row (.addImm 0 0)]

/-- Rows of classes 8 and 9 (R76). -/
def opcodeRowsAlu : List OpcodeRow :=
  [Instr.row (.ldReg 0 0), Instr.row (.orReg 0 0), Instr.row (.andReg 0 0),
   Instr.row (.xorReg 0 0), Instr.row (.addReg 0 0), Instr.row (.sub 0 0),
   Instr.row (.shr 0 0), Instr.row (.subn 0 0), Instr.row (.shl 0 0),
   Instr.row (.sneReg 0 0)]

/-- Rows of classes A to F (R76). -/
def opcodeRowsHigh : List OpcodeRow :=
  [Instr.row (.ldI 0), Instr.row (.jpV0 0), Instr.row (.rnd 0 0),
   Instr.row (.drw 0 0 0), Instr.row (.skp 0), Instr.row (.sknp 0),
   Instr.row (.ldVxDt 0), Instr.row (.ldVxKey 0), Instr.row (.ldDtVx 0),
   Instr.row (.ldStVx 0), Instr.row (.addI 0), Instr.row (.ldFont 0),
   Instr.row (.ldBcd 0), Instr.row (.storeRegs 0), Instr.row (.loadRegs 0)]

/-- The opcode map: its 34 rows in order (R75). -/
def opcodeRows : List OpcodeRow := opcodeRowsLow ++ opcodeRowsAlu ++ opcodeRowsHigh

/-- The row matches the word (R75). -/
def OpcodeRow.matchesWord (r : OpcodeRow) (w : Word) : Bool := w &&& r.mask == r.pat

/-- No word can match both rows: they fix some bit differently (R75 "no word matches two rows"). -/
def OpcodeRow.disjoint (r q : OpcodeRow) : Bool := r.mask &&& q.mask &&& (r.pat ^^^ q.pat) != 0

/-- The word is one of the 34 instructions; every other word is illegal (R77, R78). -/
def wellFormedWord (w : Word) : Bool := opcodeRows.any fun r => r.matchesWord w

end Sys2Proof
end

