-- ==== Sys2Proof/Decode.lean ====
section
/-!
DEFINITION. The decoder, from bytes to an instruction or a rejection by name (30_encoding.md rules R70 to R79),
and the encoder, from the same tables. The decoder follows the two-level dispatch of R74 and R76 and reads
nothing but the word (R79).
-/
namespace Sys2Proof

/-- Why bytes are no instruction. -/
inductive DecodeError where
  /-- The word matches no row of the opcode map (R77); it carries the raw word (R86). -/
  | unknownInstruction (w : Word)
  /-- Fewer than the two bytes of an instruction (R70). -/
  | tooShort
  deriving DecidableEq, Repr

/-- The word of two bytes, the first being bits 15 to 8 (R53, R70). -/
def wordOfBytes (hi lo : Byte) : Word := hi ++ lo

/-- Bits 15 to 8 of a word: its byte at the lower address (R53). -/
def highByte (w : Word) : Byte := w.extractLsb' 8 8

/-- Bits 7 to 0 of a word: its byte at the higher address (R53). -/
def lowByte (w : Word) : Byte := w.extractLsb' 0 8

/-- The class, `w[15:12]` (R71). -/
def opField (w : Word) : Nibble := w.extractLsb' 12 4

/-- The field `x`, `w[11:8]` (R71). -/
def xField (w : Word) : RegIdx := w.extractLsb' 8 4

/-- The field `y`, `w[7:4]` (R71). -/
def yField (w : Word) : RegIdx := w.extractLsb' 4 4

/-- The field `n`, `w[3:0]` (R71). -/
def nField (w : Word) : Nibble := w.extractLsb' 0 4

/-- The field `nn`, `w[7:0]` (R71). -/
def nnField (w : Word) : Byte := w.extractLsb' 0 8

/-- The field `nnn`, `w[11:0]` (R71). -/
def nnnField (w : Word) : Addr12 := w.extractLsb' 0 12

/-- Class 0 dispatches on the whole word (R74, R76, D7). -/
def decodeClass0 (w : Word) : Option Instr :=
  if w = 0x00E0 then some .cls else if w = 0x00EE then some .ret else none

/-- Class 5 dispatches on `n` (R74, R76, D8). -/
def decodeClass5 (w : Word) : Option Instr :=
  if nField w = 0 then some (.seReg (xField w) (yField w)) else none

/-- Class 8 dispatches on `n` (R74, R76). -/
def decodeClass8 (w : Word) : Option Instr :=
  match (nField w).toNat with
  | 0x0 => some (.ldReg (xField w) (yField w))
  | 0x1 => some (.orReg (xField w) (yField w))
  | 0x2 => some (.andReg (xField w) (yField w))
  | 0x3 => some (.xorReg (xField w) (yField w))
  | 0x4 => some (.addReg (xField w) (yField w))
  | 0x5 => some (.sub (xField w) (yField w))
  | 0x6 => some (.shr (xField w) (yField w))
  | 0x7 => some (.subn (xField w) (yField w))
  | 0xE => some (.shl (xField w) (yField w))
  | _ => none

/-- Class 9 dispatches on `n` (R74, R76, D8). -/
def decodeClass9 (w : Word) : Option Instr :=
  if nField w = 0 then some (.sneReg (xField w) (yField w)) else none

/-- Class E dispatches on `nn` (R74, R76). -/
def decodeClassE (w : Word) : Option Instr :=
  match (nnField w).toNat with
  | 0x9E => some (.skp (xField w))
  | 0xA1 => some (.sknp (xField w))
  | _ => none

/-- Class F dispatches on `nn` (R74, R76). -/
def decodeClassF (w : Word) : Option Instr :=
  match (nnField w).toNat with
  | 0x07 => some (.ldVxDt (xField w))
  | 0x0A => some (.ldVxKey (xField w))
  | 0x15 => some (.ldDtVx (xField w))
  | 0x18 => some (.ldStVx (xField w))
  | 0x1E => some (.addI (xField w))
  | 0x29 => some (.ldFont (xField w))
  | 0x33 => some (.ldBcd (xField w))
  | 0x55 => some (.storeRegs (xField w))
  | 0x65 => some (.loadRegs (xField w))
  | _ => none

/-- First-level dispatch on the class (R74, R76): the instruction of a word, or none if it is illegal (R77). -/
def decodeWord (w : Word) : Option Instr :=
  match (opField w).toNat with
  | 0x0 => decodeClass0 w
  | 0x1 => some (.jp (nnnField w))
  | 0x2 => some (.call (nnnField w))
  | 0x3 => some (.seImm (xField w) (nnField w))
  | 0x4 => some (.sneImm (xField w) (nnField w))
  | 0x5 => decodeClass5 w
  | 0x6 => some (.ldImm (xField w) (nnField w))
  | 0x7 => some (.addImm (xField w) (nnField w))
  | 0x8 => decodeClass8 w
  | 0x9 => decodeClass9 w
  | 0xA => some (.ldI (nnnField w))
  | 0xB => some (.jpV0 (nnnField w))
  | 0xC => some (.rnd (xField w) (nnField w))
  | 0xD => some (.drw (xField w) (yField w) (nField w))
  | 0xE => decodeClassE w
  | _ => decodeClassF w

/-- The instruction at the head of a list of bytes with the bytes after it, or the name of the rejection. -/
def decode : List Byte → Except DecodeError (Instr × List Byte)
  | hi :: lo :: rest =>
    match decodeWord (wordOfBytes hi lo) with
    | some i => .ok (i, rest)
    | none => .error (.unknownInstruction (wordOfBytes hi lo))
  | _ => .error .tooShort

/-- Format A: class, then a 12-bit address (R72). -/
def wordA (op : Nibble) (nnn : Addr12) : Word := op ++ nnn

/-- Formats XK and XS: class, `x`, then a byte that is an immediate or a sub-selector (R72). -/
def wordXK (op : Nibble) (x : RegIdx) (nn : Byte) : Word := op ++ x ++ nn

/-- Formats XYS and XYN: class, `x`, `y`, then a nibble that is a sub-selector or a row count (R72). -/
def wordXY (op : Nibble) (x y : RegIdx) (n : Nibble) : Word := op ++ x ++ y ++ n

/-- The word of an instruction: the fixed bits of its row (R75) with its fields in their places (R71, R72). -/
def encode : Instr → Word
  | .cls => 0x00E0
  | .ret => 0x00EE
  | .jp nnn => wordA 0x1 nnn
  | .call nnn => wordA 0x2 nnn
  | .seImm x nn => wordXK 0x3 x nn
  | .sneImm x nn => wordXK 0x4 x nn
  | .seReg x y => wordXY 0x5 x y 0x0
  | .ldImm x nn => wordXK 0x6 x nn
  | .addImm x nn => wordXK 0x7 x nn
  | .ldReg x y => wordXY 0x8 x y 0x0
  | .orReg x y => wordXY 0x8 x y 0x1
  | .andReg x y => wordXY 0x8 x y 0x2
  | .xorReg x y => wordXY 0x8 x y 0x3
  | .addReg x y => wordXY 0x8 x y 0x4
  | .sub x y => wordXY 0x8 x y 0x5
  | .shr x y => wordXY 0x8 x y 0x6
  | .subn x y => wordXY 0x8 x y 0x7
  | .shl x y => wordXY 0x8 x y 0xE
  | .sneReg x y => wordXY 0x9 x y 0x0
  | .ldI nnn => wordA 0xA nnn
  | .jpV0 nnn => wordA 0xB nnn
  | .rnd x nn => wordXK 0xC x nn
  | .drw x y n => wordXY 0xD x y n
  | .skp x => wordXK 0xE x 0x9E
  | .sknp x => wordXK 0xE x 0xA1
  | .ldVxDt x => wordXK 0xF x 0x07
  | .ldVxKey x => wordXK 0xF x 0x0A
  | .ldDtVx x => wordXK 0xF x 0x15
  | .ldStVx x => wordXK 0xF x 0x18
  | .addI x => wordXK 0xF x 0x1E
  | .ldFont x => wordXK 0xF x 0x29
  | .ldBcd x => wordXK 0xF x 0x33
  | .storeRegs x => wordXK 0xF x 0x55
  | .loadRegs x => wordXK 0xF x 0x65

/-- The two bytes of an instruction in address order, high byte first (R53, R70). -/
def encodeBytes (i : Instr) : List Byte := [highByte (encode i), lowByte (encode i)]

/-- The word of an instruction whose `nbits` table bits are `w`, bits above them being zero (every row of the
table is one 16-bit word, R70). -/
def tableWord (nbits w : Nat) : Word := BitVec.ofNat 16 (w % 2 ^ nbits)

/-- The instruction the decoder reads from an opcode-table word laid out high byte first. -/
def decodeTableWord (nbits w : Nat) : Option Instr :=
  match decode [highByte (tableWord nbits w), lowByte (tableWord nbits w)] with
  | .ok (i, _) => some i
  | .error _ => none

end Sys2Proof
end

