-- ==== Sys2Proof/Config.lean ====
section
/-!
DEFINITION. What one implementation fixes (00_scope.md rule R5, the open parameters at the end of
92_eei_decisions.md) and the one free input of a step (44_random.md rule R151). An open parameter is an opaque
constant: nothing in Lean can evaluate it, so every claim holds for each value the spec allows.
-/
namespace Sys2Proof

/-- The orders of result write and flag write the spec leaves open (R131, D10). -/
inductive VfAliasOrder where
  /-- Operands read, result written, then the flag written: the spec's nominal order. -/
  | flagLast
  /-- Operands read, flag written, then the result written. -/
  | resultLast
  /-- Flag computed from the old operands and written, then operands read again and the result written. -/
  | flagFirstReread
  deriving DecidableEq, Repr, Inhabited

/-- The two behaviours of FX29 on a value above 0x0F (R142, D11). -/
inductive FontHighNibble where
  /-- The glyph of the low four bits of V[x]. -/
  | mask
  /-- 0x050 + 5 * V[x], past the font table. -/
  | nomask
  deriving DecidableEq, Repr, Inhabited

namespace Config

/-- MEM_SIZE: bytes of memory (R5, R50). -/
abbrev memSize : Nat := 4096

/-- FLAG_REG: the index of VF (R5, R22). -/
abbrev flagReg : RegIdx := 0xF

/-- STACK_DEPTH: slots of the call stack (R5, R25, 90_conflicts.md C1; log 14). -/
abbrev stackDepth : Nat := 48

/-- FONT_BASE: first byte of the font table (R5, R52). -/
abbrev fontBase : Nat := 0x050

/-- FONT_SIZE: bytes of the font table (R5, R52). -/
abbrev fontSize : Nat := 80

/-- PROG_BASE: first byte of the program image and reset value of pc (R5, R51). -/
abbrev progBase : Nat := 0x200

/-- PROG_MAX: bytes of the largest program image (R5, R195). -/
abbrev progMax : Nat := 3584

/-- TIMER_HZ: the canonical timer frequency (R5, R192). -/
abbrev timerHz : Nat := 60

/-- One less than TIMER_PRECISION: an open natural with no value (R5, R28, D13; log 8). -/
opaque timerPrecisionPred : Nat

/-- TIMER_PRECISION, P: an open POSITIVE integer (R5, R28, D13; log 8). -/
def timerPrecision : Nat := timerPrecisionPred + 1

/-- VF_ALIAS_ORDER: open (R5, R131, D10; log 9). -/
opaque vfAliasOrder : VfAliasOrder

/-- FX29_HIGH_NIBBLE: open (R5, R142, D11; log 11). -/
opaque fontHighNibble : FontHighNibble

/-- The byte of the k-th draw of CXNN: a free value, under no law (R150, R151, D22; log 12). -/
opaque randomByte : Nat → Byte

end Config
end Sys2Proof
end

