-- ==== Sys2Proof/Machine/State.lean ====
section
/-!
DEFINITION. The state of the core (10_state.md rule R20) as plain data, the fault values its latch can hold
(60_exceptions.md rule R211), the operations of its host (48_frame_sequencer_and_host.md rule R194), and the
state right after reset (R36, R230).
-/
namespace Sys2Proof.Machine

/-- Which use of memory went out of range (R216). -/
inductive AccessKind where
  | fetch
  | read
  | write
  deriving DecidableEq, Repr

/-- Which configuration register a refused write named (R214). -/
inductive ConfigReg where
  | frameRate
  | clockSpeed
  deriving DecidableEq, Repr

/-- The values of the fault latch other than none (R211), each with the information it records. -/
inductive FaultValue where
  /-- Code 1: an illegal word was dispatched; records the word (R212). -/
  | unknownInstruction (w : Word)
  /-- Code 2: RET on an empty stack (R213). -/
  | stackUnderflow
  /-- Code 3: a configuration register was written with 0; records which, and the value (R214). -/
  | configurationError (reg : ConfigReg) (value : Nat)
  /-- Code 4: a program image longer than 3584 bytes; records its length (R214). -/
  | capacityExceeded (len : Nat)
  /-- Code 5: the program file could not be read; never raised by the core (R214, log 28). -/
  | ioFailure
  /-- Code 6: CALL on a full stack (R215). -/
  | stackOverflow
  /-- Code 7: an address above 0xFFF would be used; records the highest one (R216). -/
  | addressOutOfRange (kind : AccessKind) (a : Nat)
  /-- Code 8: a key skip on a value above 0x0F; records the value (R222). -/
  | keyIndexOutOfRange (k : Byte)
  deriving DecidableEq, Repr

/-- The display buffer: `disp[cx][cy]`, cx in 0 to 63 and cy in 0 to 31 (R29). -/
abbrev Disp := Vector (Vector Bool 32) 64

/-- The operations the host performs on the core (R194). -/
inductive HostOp where
  /-- Construction (R230). -/
  | reset
  /-- setFrameRate(fps) (R196). -/
  | setFrameRate (fps : Nat)
  /-- setClockSpeed(c) (R197). -/
  | setClockSpeed (c : Nat)
  /-- loadProgram(bytes) (R195). -/
  | loadProgram (bytes : List Byte)
  /-- The host writes all sixteen keys (R201). -/
  | writeKeys (held : Vector Bool 16)
  /-- executeFrame() (R190). -/
  | executeFrame
  /-- executeOneCycle() (R193). -/
  | executeOneCycle
  /-- consumeDrawFlag() (R198). -/
  | consumeDrawFlag
  /-- getDisplay() (R199). -/
  | getDisplay
  /-- shouldBeep() (R200). -/
  | shouldBeep
  /-- read fault (R220). -/
  | readFault
  deriving DecidableEq, Repr

/-- What a completed host operation returns (the outputs of R194). -/
inductive Reply where
  /-- The operation succeeded. -/
  | ok
  /-- The fault raised, or the one already latched (R219). -/
  | fault (f : FaultValue)
  /-- The boolean of consumeDrawFlag or shouldBeep. -/
  | bool (b : Bool)
  /-- The grid of getDisplay. -/
  | display (d : Disp)
  /-- The contents of the fault latch. -/
  | latch (f : Option FaultValue)
  deriving DecidableEq, Repr

/-- The state. The first fourteen fields are the spec's (R20); the last five are the model's own: a loop counter,
the host's session, its last answer, and the index of the next free value. -/
structure State where
  /-- `V[0..15]`, the general registers; `V[15]` is VF (R21, R22). -/
  V : Vector Byte 16
  /-- The address register (R23). -/
  I : Word
  /-- The program counter (R24). -/
  pc : Word
  /-- The call stack's slots (R25). -/
  stack : Vector Word Config.stackDepth
  /-- How many values the call stack holds (R25). -/
  sp : Fin (Config.stackDepth + 1)
  /-- `dt_s`, the scaled delay timer (R26, R28). -/
  dtS : Nat
  /-- `st_s`, the scaled sound timer (R27, R28). -/
  stS : Nat
  /-- The display buffer (R29). -/
  disp : Disp
  /-- `draw_flag`, the display-changed signal (R30). -/
  drawFlag : Bool
  /-- The key-state array (R31). -/
  keys : Vector Bool 16
  /-- `cfg_fps`, frames per second (R32). -/
  cfgFps : Nat
  /-- `cfg_clock`, instructions per second (R32). -/
  cfgClock : Nat
  /-- The fault latch; the core is halted when it is not none (R33, R219). -/
  fault : Option FaultValue
  /-- The memory, in the canonical form of `Mem.wf` (R34, R50; log 7). -/
  mem : List Host.Cell
  /-- Cycles still to run in the frame in progress; 0 between operations (the loop of R190; log 17). -/
  frameLeft : Nat
  /-- The session's one load has succeeded (R195, R203; log 16). -/
  loaded : Bool
  /-- What the host will do next, first first (R203; log 16). -/
  hostOps : List HostOp
  /-- What the last completed host operation returned; none if it has no output (R194; log 18). -/
  reply : Option Reply
  /-- How many bytes CXNN has drawn: the index of the next free value (R151; log 13). -/
  draws : Nat
  deriving DecidableEq, Repr

/-- Why the machine stops. Every fault of the SPEC is a next state with its latch set (R217), so this type holds
only what no state the spec allows can show. -/
inductive Fault where
  /-- Raised by the frame sequencer (`beginFrame`, `frameCycle`, `executeFrame`) when `cfgFps` is 0, which no
  operation can produce (R32, R39, R196): the division of R191 has no value there. Safe: the model stops where
  the hardware cannot be (log 24). -/
  | zeroFrameRate
  deriving DecidableEq, Repr

/-- Why the machine gives a step no meaning. -/
inductive Refusal where
  /-- Raised by `exec`'s arm of an instruction that has no meaning yet, by its mnemonic. Safe: nothing follows
  from it. No arm of this model uses it. -/
  | notModelled (mnemonic : String)
  /-- Raised by `hostMove` when the host loads a second time, or after execution has begun: outside the host's
  contract, given no move (R195, R204, 93_implementation_defined.md U15; log 19). Safe. -/
  | secondLoad
  /-- Raised by `hostMove` when the host runs a frame or a cycle before a load: outside the host's contract,
  given no move (R203, U15; log 19). Safe. -/
  | runBeforeLoad
  deriving DecidableEq, Repr

/-- What a step answers. -/
abbrev Result := Host.Outcome State Fault Refusal

/-- The machine right after reset (R36, R230), with no host operation queued. `V`, `I`, `stack`, `dtS`, `stS`,
`drawFlag` and `keys` have no reset value in the spec (R37): DESIGN CHOICE, unsafe, logs 1 to 6. No memory cell is
listed: the font and what the other bytes read as are `Mem.initial` (log 7). -/
def State.reset : State where
  V := Vector.replicate 16 0
  I := 0
  pc := 0x0200
  stack := Vector.replicate Config.stackDepth 0
  sp := 0
  dtS := 0
  stS := 0
  disp := Vector.replicate 64 (Vector.replicate 32 false)
  drawFlag := false
  keys := Vector.replicate 16 false
  cfgFps := 60
  cfgClock := 700
  fault := none
  mem := []
  frameLeft := 0
  loaded := false
  hostOps := []
  reply := none
  draws := 0

end Sys2Proof.Machine
end

