-- ==== Sys2Proof/Machine/Ops.lean ====
section
/-!
DEFINITION. The named operations on memory and state that every meaning uses: bytes of memory (20_memory.md),
registers, the call stack (10_state.md rule R25), the program counter (R24, R85, R114), and the one operation that
takes a fault (60_exceptions.md rule R217). There is no return from a fault: only reset clears the latch (R220).
-/
namespace Sys2Proof.Machine

/-! ### Outcomes -/

/-- Go on from a next state; a stop stays what it is. -/
def Result.andThen (r : Result) (k : State → Result) : Result :=
  match r with
  | .next s => k s
  | .fault f => .fault f
  | .refused f => .refused f

/-! ### Memory -/

/-- Glyphs 0 to 7 of the font table, five rows each (R52). UNVERIFIED: canonical bytes, log 26. -/
def fontLow : List Byte :=
  [0xF0, 0x90, 0x90, 0x90, 0xF0, 0x20, 0x60, 0x20, 0x20, 0x70,
   0xF0, 0x10, 0xF0, 0x80, 0xF0, 0xF0, 0x10, 0xF0, 0x10, 0xF0,
   0x90, 0x90, 0xF0, 0x10, 0x10, 0xF0, 0x80, 0xF0, 0x10, 0xF0,
   0xF0, 0x80, 0xF0, 0x90, 0xF0, 0xF0, 0x10, 0x20, 0x40, 0x40]

/-- Glyphs 8 to F of the font table, five rows each (R52). UNVERIFIED: canonical bytes, log 26. -/
def fontHigh : List Byte :=
  [0xF0, 0x90, 0xF0, 0x90, 0xF0, 0xF0, 0x90, 0xF0, 0x10, 0xF0,
   0xF0, 0x90, 0xF0, 0x90, 0x90, 0xE0, 0x90, 0xE0, 0x90, 0xE0,
   0xF0, 0x80, 0x80, 0x80, 0xF0, 0xE0, 0x90, 0x90, 0x90, 0xE0,
   0xF0, 0x80, 0xF0, 0x80, 0xF0, 0xF0, 0x80, 0xF0, 0x80, 0x80]

/-- The font table, 80 bytes (R52). -/
def fontTable : List Byte := fontLow ++ fontHigh

/-- What a byte of memory that nothing has written reads as: its font byte at 0x050 to 0x09F (R52, R64),
elsewhere 0x00 (DESIGN CHOICE, unsafe: the spec gives no value, log 7). -/
def Mem.initial (a : Nat) : Byte :=
  if Config.fontBase ≤ a ∧ a < Config.fontBase + Config.fontSize then fontTable.getD (a - Config.fontBase) 0 else 0

/-- The byte at address `a` (R10 MemRead). Every use is behind the range check of R56 (log 29). -/
def Mem.read : List Host.Cell → Nat → Byte
  | [], a => Mem.initial a
  | (b, v) :: rest, a => if a = b then v else Mem.read rest a

/-- Put the byte `v` at address `a` of a sorted list, keeping the canonical form: no cell that holds what an
unlisted address reads as. -/
def Mem.put : List Host.Cell → Nat → Byte → List Host.Cell
  | [], a, v => if v = Mem.initial a then [] else [(a, v)]
  | (b, w) :: rest, a, v =>
    if a < b then if v = Mem.initial a then (b, w) :: rest else (a, v) :: (b, w) :: rest
    else if a = b then if v = Mem.initial a then rest else (a, v) :: rest
    else (b, w) :: Mem.put rest a v

/-- Write one byte (R10 MemWrite). An address above 0xFFF has no cell and nothing is stored: every use is behind
the range check of R56 (log 29). -/
def Mem.write (m : List Host.Cell) (a : Nat) (v : Byte) : List Host.Cell :=
  if a < Config.memSize then Mem.put m a v else m

/-- Write a run of bytes at `a`, `a + 1`, ..., in address order (R59). -/
def Mem.writeBytes : List Host.Cell → Nat → List Byte → List Host.Cell
  | m, _, [] => m
  | m, a, v :: rest => Mem.writeBytes (Mem.write m a v) (a + 1) rest

/-- The canonical form from address `lo` on: addresses rising and below 4096, no cell that holds what an unlisted
address reads as. -/
def Mem.wfFrom : Nat → List Host.Cell → Bool
  | _, [] => true
  | lo, (a, v) :: rest => lo ≤ a && a < Config.memSize && v != Mem.initial a && Mem.wfFrom (a + 1) rest

/-- The canonical form of a memory, so that equal memories are equal lists. -/
def Mem.wf (m : List Host.Cell) : Bool := Mem.wfFrom 0 m

/-! ### Registers -/

/-- `V[i]` (R8, R21). -/
def State.getV (s : State) (i : RegIdx) : Byte := s.V[i.toNat]

/-- `V[i] <- v` (R8, R21). No register is hard-wired: V0 is ordinary (R21) and so is VF (R22). -/
def State.setV (s : State) (i : RegIdx) (v : Byte) : State := { s with V := s.V.set i.toNat v }

/-- Replace the whole register file. -/
def State.setRegs (s : State) (V : Vector Byte 16) : State := { s with V := V }

/-- `I <- v` (R8, R23). -/
def State.setI (s : State) (v : Word) : State := { s with I := v }

/-- `pc <- v` (R8, R24). -/
def State.setPc (s : State) (v : Word) : State := { s with pc := v }

/-- `dt_s <- v` (R26). -/
def State.setDt (s : State) (v : Nat) : State := { s with dtS := v }

/-- `st_s <- v` (R27). -/
def State.setSt (s : State) (v : Nat) : State := { s with stS := v }

/-- Replace the memory. -/
def State.setMem (s : State) (m : List Host.Cell) : State := { s with mem := m }

/-- Replace the display buffer and raise `draw_flag`: every clear and draw does both (R30). -/
def State.showDisp (s : State) (d : Disp) : State := { s with disp := d, drawFlag := true }

/-- The byte at address `a` of the state's memory. -/
def State.readByte (s : State) (a : Nat) : Byte := Mem.read s.mem a

/-- Draw the next random byte's index (R151): the counter moves on, so that no draw is used twice. -/
def State.nextDraw (s : State) : State := { s with draws := s.draws + 1 }

/-! ### The program counter -/

/-- The fetch's advance, before dispatch (R85). -/
def State.advancePc (s : State) : State := s.setPc (s.pc + 2)

/-- The skip of R114: 2 more when the condition holds, nothing otherwise. -/
def State.skipIf (s : State) (c : Bool) : State := if c then s.setPc (s.pc + 2) else s

/-- FX0A's step back onto itself (R172). -/
def State.rewindPc (s : State) : State := s.setPc (s.pc - 2)

/-! ### The call stack -/

/-- Save `pc` on a stack with a free slot: `stack[sp] <- pc`, then `sp <- sp + 1` (R25, R103). -/
def State.pushPc (s : State) (h : s.sp.val < Config.stackDepth) : State :=
  { s with stack := s.stack.set s.sp.val s.pc h, sp := ⟨s.sp.val + 1, Nat.succ_lt_succ h⟩ }

/-- Return through the newest saved value: `sp <- sp - 1`, then `pc <- stack[sp]` (R25, R101). The slot keeps its
contents. -/
def State.popPc (s : State) (h : 0 < s.sp.val) : State :=
  { s with
    sp := ⟨s.sp.val - 1, by omega⟩
    pc := s.stack[s.sp.val - 1]'(by omega) }

/-! ### Taking a fault -/

/-- Fault entry (R217): the latch takes the value, and nothing else happens: nothing is saved, no handler runs. -/
def State.raise (s : State) (f : FaultValue) : State := { s with fault := some f }

/-- An instruction that raises ends with only the latch written (R10 "raise before any state change", R218). -/
def takeFault (f : FaultValue) (s : State) : Result := .next (s.raise f)

/-- Check the highest address of an access, before the instruction changes any state (R56, R216). -/
def checkAddr (kind : AccessKind) (a : Nat) (s : State) (k : State → Result) : Result :=
  if a < Config.memSize then k s else takeFault (.addressOutOfRange kind a) s

/-- The code of a fault value, 1 to 8 (R211, D17). -/
def FaultValue.code : FaultValue → Nat
  | .unknownInstruction _ => 1
  | .stackUnderflow => 2
  | .configurationError _ _ => 3
  | .capacityExceeded _ => 4
  | .ioFailure => 5
  | .stackOverflow => 6
  | .addressOutOfRange _ _ => 7
  | .keyIndexOutOfRange _ => 8

/-- The uppercase hexadecimal digit of a nibble. -/
def hexDigit (n : Nibble) : Char :=
  "0123456789ABCDEF".toList.getD n.toNat '0'

/-- The host-visible text of an unknown word: four uppercase hexadecimal digits, most significant first,
zero-padded, no prefix (R86, D30). -/
def unknownWordText (w : Word) : List Char :=
  [hexDigit (opField w), hexDigit (xField w), hexDigit (yField w), hexDigit (nField w)]

/-! ### The fetch -/

/-- Fetch the two bytes at `pc` and `pc + 1` (R53, R54, R85): the bytes in address order, or the fault of a `pc`
above 0xFFE. Nothing is changed. -/
def fetchBytes (s : State) : Except FaultValue (List Byte) :=
  if s.pc.toNat + 1 < Config.memSize then .ok [s.readByte s.pc.toNat, s.readByte (s.pc.toNat + 1)]
  else .error (.addressOutOfRange .fetch (s.pc.toNat + 1))

end Sys2Proof.Machine
end

