-- ==== Sys2Proof/Machine/Operands.lean ====
section
/-!
DEFINITION. Every operand form of the instruction set (30_encoding.md rule R73, 20_memory.md rule R57): immediates
zero-extended, the base `I` plus a small offset, register groups, digits, glyph addresses, sprite coordinates and
key indices. No operand is signed or scaled (R6, R73).
-/
namespace Sys2Proof.Machine

/-- `nnn` widened to 16 bits with zeros (R73). -/
def zextAddr (nnn : Addr12) : Word := nnn.setWidth 16

/-- A register's value widened to 16 bits with zeros (R73). -/
def zextByte (v : Byte) : Word := v.setWidth 16

/-- The address `I + k` (R57). It is a natural number: it is not reduced modulo 4096 or 65536 (R56). -/
def State.addrI (s : State) (k : Nat) : Nat := s.I.toNat + k

/-- The three decimal digits of a byte, hundreds first (R143). -/
def bcdDigits (v : Byte) : List Byte :=
  [BitVec.ofNat 8 (v.toNat / 100), BitVec.ofNat 8 (v.toNat / 10 % 10), BitVec.ofNat 8 (v.toNat % 10)]

/-- Registers V0 to Vx inclusive, register 0 first: the block FX55 stores (R144). -/
def State.regBlock (s : State) (x : RegIdx) : List Byte := s.V.toList.take (x.toNat + 1)

/-- The register file with registers 0 to x taken from memory at `I`, `I + 1`, ... (R145). -/
def State.regsFromMem (s : State) (x : RegIdx) : Vector Byte 16 :=
  Vector.ofFn fun i => if i.val ≤ x.toNat then s.readByte (s.addrI i.val) else s.V[i]

/-- The address of the glyph of a digit, `0x050 + 5 * digit` (R142, R52). -/
def glyphAddr (digit : Nat) : Word := BitVec.ofNat 16 (Config.fontBase + 5 * digit)

/-- FX29's result: the glyph of V[x] for 0 to 15, and above that what FX29_HIGH_NIBBLE says (R142, log 11). -/
def fontAddr (p : FontHighNibble) (v : Byte) : Word :=
  if v.toNat ≤ 0x0F then glyphAddr v.toNat
  else
    match p with
    | .mask => glyphAddr (v.toNat % 16)
    | .nomask => glyphAddr v.toNat

/-- The least index of a held key (R172). -/
def leastHeld (keys : Vector Bool 16) : Option Nat := keys.toList.findIdx? id

/-- The display column of sprite pixel c when V[x] = x0 (R162): it wraps at 64. -/
def spriteCol (x0 : Byte) (c : Nat) : Fin 64 := Fin.ofNat 64 (x0.toNat + c)

/-- The display row of sprite row r when V[y] = y0 (R162): it wraps at 32. -/
def spriteRow (y0 : Byte) (r : Nat) : Fin 32 := Fin.ofNat 32 (y0.toNat + r)

/-- Bit 7 - c of a sprite byte: its pixel of column c, most significant first (R162). -/
def spriteBit (b : Byte) (c : Nat) : Bool := b.getLsbD (7 - c)

end Sys2Proof.Machine
end

