-- ==== Sys2Proof/Machine/Flags.lean ====
section
/-!
DEFINITION. Every result and flag the ALU computes (42_alu.md rules R126 to R132), exact over the naturals and
narrowed at the end, and the two writes of a flag-writing instruction, in the order R131 leaves open when VF is
itself an operand.
-/
namespace Sys2Proof.Machine

/-- `b2n`: 1 when the condition holds, else 0, as a register value (R7). -/
def b2n (c : Bool) : Byte := if c then 1 else 0

/-- `(a + b) mod 256` (R121, R126, R132). -/
def addMod (a b : Byte) : Byte := BitVec.ofNat 8 ((a.toNat + b.toNat) % 256)

/-- Carry: the sum exceeds 255 (R126). -/
def carryOut (a b : Byte) : Bool := 255 < a.toNat + b.toNat

/-- `(a - b) mod 256`: `a - b`, plus 256 when `a < b` (R127, R132). -/
def subMod (a b : Byte) : Byte := BitVec.ofNat 8 ((a.toNat + 256 - b.toNat) % 256)

/-- No borrow: the minuend is at least the subtrahend (R127, R129). -/
def noBorrow (a b : Byte) : Bool := b.toNat ≤ a.toNat

/-- `floor(a / 2)` (R128). -/
def shiftRight1 (a : Byte) : Byte := BitVec.ofNat 8 (a.toNat / 2)

/-- `(a * 2) mod 256` (R130). -/
def shiftLeft1 (a : Byte) : Byte := BitVec.ofNat 8 (a.toNat * 2 % 256)

/-- What a flag-writing instruction computes from its two operand values: the result and the flag. A shift uses
the first operand only. -/
inductive FlagOp where
  | add
  | sub
  | subn
  | shr
  | shl
  deriving DecidableEq, Repr

/-- The result for V[x] from the operand values a = V[x] and b = V[y] (R126 to R130). -/
def aluResult : FlagOp → Byte → Byte → Byte
  | .add, a, b => addMod a b
  | .sub, a, b => subMod a b
  | .subn, a, b => subMod b a
  | .shr, a, _ => shiftRight1 a
  | .shl, a, _ => shiftLeft1 a

/-- The flag for VF from the operand values before any write (R126 to R130). -/
def aluFlag : FlagOp → Byte → Byte → Bool
  | .add, a, b => carryOut a b
  | .sub, a, b => noBorrow a b
  | .subn, a, b => noBorrow b a
  | .shr, a, _ => a.getLsbD 0
  | .shl, a, _ => a.getLsbD 7

/-- The two writes in one of the three orders of R131. -/
def State.writeInOrder (s : State) (order : VfAliasOrder) (op : FlagOp) (x y : RegIdx) : State :=
  let flag := b2n (aluFlag op (s.getV x) (s.getV y))
  let result := aluResult op (s.getV x) (s.getV y)
  match order with
  | .flagLast => (s.setV x result).setV Config.flagReg flag
  | .resultLast => (s.setV Config.flagReg flag).setV x result
  | .flagFirstReread =>
    let s' := s.setV Config.flagReg flag
    s'.setV x (aluResult op (s'.getV x) (s'.getV y))

/-- A flag-writing instruction on V[x] and V[y]: with neither field 0xF, result and flag as R126 to R130 give them;
with a field 0xF, in the order VF_ALIAS_ORDER says (R131, log 9). -/
def State.aluWithFlag (s : State) (op : FlagOp) (x y : RegIdx) : State :=
  if x ≠ Config.flagReg ∧ y ≠ Config.flagReg then
    (s.setV x (aluResult op (s.getV x) (s.getV y))).setV Config.flagReg (b2n (aluFlag op (s.getV x) (s.getV y)))
  else s.writeInOrder Config.vfAliasOrder op x y

/-- An instruction with no flag: V[x] from an operand value (R120 to R125); VF is written only as a destination. -/
def State.aluNoFlag (s : State) (x : RegIdx) (f : Byte → Byte → Byte) (b : Byte) : State :=
  s.setV x (f (s.getV x) b)

/-- DXYN's coordinates (R161): V[x] and V[y], read before VF is reset to 0. When a field is 0xF and the order reads
operands again after the flag's write, that field reads the 0 (R161(g), logs 9 and 10). -/
def State.drawCoords (s : State) (order : VfAliasOrder) (x y : RegIdx) : Byte × Byte :=
  match order with
  | .flagFirstReread =>
    let s' := s.setV Config.flagReg 0
    (s'.getV x, s'.getV y)
  | _ => (s.getV x, s.getV y)

/-- The coordinates the draw uses: the order matters only when a field is 0xF (R161). -/
def State.coordsOf (s : State) (x y : RegIdx) : Byte × Byte :=
  if x ≠ Config.flagReg ∧ y ≠ Config.flagReg then (s.getV x, s.getV y)
  else s.drawCoords Config.vfAliasOrder x y

end Sys2Proof.Machine
end

