-- ==== Sys2Proof/Machine/Alu.lean ====
section
/-!
DEFINITION. Register loads and the ALU (42_alu.md). The instructions without a flag leave VF alone unless it is
the destination (R120 to R125, R133); the five with a flag are `State.aluWithFlag` (R126 to R131).
-/
namespace Sys2Proof.Machine

/-- 6XNN LD Vx, nn (R120). -/
def execLdImm (x : RegIdx) (nn : Byte) (s : State) : Result := .next (s.setV x nn)

/-- 7XNN ADD Vx, nn (R121): no flag, even when the sum exceeds 255. -/
def execAddImm (x : RegIdx) (nn : Byte) (s : State) : Result := .next (s.aluNoFlag x addMod nn)

/-- 8XY0 LD Vx, Vy (R122). -/
def execLdReg (x y : RegIdx) (s : State) : Result := .next (s.setV x (s.getV y))

/-- 8XY1 OR Vx, Vy (R123): VF unchanged. -/
def execOrReg (x y : RegIdx) (s : State) : Result := .next (s.aluNoFlag x (· ||| ·) (s.getV y))

/-- 8XY2 AND Vx, Vy (R124): VF unchanged. -/
def execAndReg (x y : RegIdx) (s : State) : Result := .next (s.aluNoFlag x (· &&& ·) (s.getV y))

/-- 8XY3 XOR Vx, Vy (R125): VF unchanged. -/
def execXorReg (x y : RegIdx) (s : State) : Result := .next (s.aluNoFlag x (· ^^^ ·) (s.getV y))

/-- 8XY4 ADD Vx, Vy (R126): VF is the carry. -/
def execAddReg (x y : RegIdx) (s : State) : Result := .next (s.aluWithFlag .add x y)

/-- 8XY5 SUB Vx, Vy (R127): VF is 1 when there is no borrow. -/
def execSub (x y : RegIdx) (s : State) : Result := .next (s.aluWithFlag .sub x y)

/-- 8XY6 SHR Vx (R128): in place on V[x], `y` is ignored (R78). -/
def execShr (x _y : RegIdx) (s : State) : Result := .next (s.aluWithFlag .shr x x)

/-- 8XY7 SUBN Vx, Vy (R129): V[y] - V[x], VF is 1 when there is no borrow. -/
def execSubn (x y : RegIdx) (s : State) : Result := .next (s.aluWithFlag .subn x y)

/-- 8XYE SHL Vx (R130): in place on V[x], `y` is ignored (R78). -/
def execShl (x _y : RegIdx) (s : State) : Result := .next (s.aluWithFlag .shl x x)

end Sys2Proof.Machine
end

