-- ==== Sys2Proof/Machine/ControlFlow.lean ====
section
/-!
DEFINITION. Control transfer (40_control_flow.md): RET, JP, CALL, JP V0. `pc` already holds the address after the
instruction (30_encoding.md rule R85). Targets are absolute and unchecked (R100).
-/
namespace Sys2Proof.Machine

/-- 00EE RET (R101): StackUnderflow on an empty stack (R213), else back to the newest saved `pc`. -/
def execRet (s : State) : Result :=
  if h : 0 < s.sp.val then .next (s.popPc h) else takeFault .stackUnderflow s

/-- 1NNN JP nnn (R102). -/
def execJp (nnn : Addr12) (s : State) : Result := .next (s.setPc (zextAddr nnn))

/-- 2NNN CALL nnn (R103): StackOverflow on a full stack (R215), else save the advanced `pc` and jump. -/
def execCall (nnn : Addr12) (s : State) : Result :=
  if h : s.sp.val < Config.stackDepth then .next ((s.pushPc h).setPc (zextAddr nnn))
  else takeFault .stackOverflow s

/-- BNNN JP V0, nnn (R104): the sum keeps 16 bits, it is not reduced to 12. -/
def execJpV0 (nnn : Addr12) (s : State) : Result :=
  .next (s.setPc (BitVec.ofNat 16 ((nnn.toNat + (s.getV 0).toNat) % 65536)))

end Sys2Proof.Machine
end

