-- ==== Sys2Proof/Machine/Display.lean ====
section
/-!
DEFINITION. The display instructions, the collision detector and the bitmap buffer (45_display.md). The draw
follows the pseudocode of R161: the rows in order, and in each row its pixels from bit 7 down.
-/
namespace Sys2Proof.Machine

/-- The clear display (R36, R160). -/
def clearDisp : Disp := Vector.replicate 64 (Vector.replicate 32 false)

/-- The cell `disp[cx][cy]` (R29). -/
def Disp.cell (d : Disp) (cx : Fin 64) (cy : Fin 32) : Bool := d[cx][cy]

/-- Write the cell `disp[cx][cy]`. -/
def Disp.setCell (d : Disp) (cx : Fin 64) (cy : Fin 32) (b : Bool) : Disp := d.set cx (d[cx].set cy b)

/-- One sprite pixel on a cell (R161): a 1 bit toggles it, and a lit cell turned off is a collision. The pair is
the display and whether a collision has happened so far. -/
def drawPixel (bit : Bool) (cx : Fin 64) (cy : Fin 32) (c : Disp × Bool) : Disp × Bool :=
  if bit then (c.1.setCell cx cy (!c.1.cell cx cy), c.2 || c.1.cell cx cy) else c

/-- The first `k` pixels of a sprite row whose byte is `b`, on display row `cy` (R161, R162). -/
def drawCols (b : Byte) (x0 : Byte) (cy : Fin 32) (c : Disp × Bool) : Nat → Disp × Bool
  | 0 => c
  | k + 1 => drawPixel (spriteBit b k) (spriteCol x0 k) cy (drawCols b x0 cy c k)

/-- The first `k` rows of the sprite at `I` in the state's memory (R161, R162). -/
def drawRows (s : State) (x0 y0 : Byte) (c : Disp × Bool) : Nat → Disp × Bool
  | 0 => c
  | k + 1 => drawCols (s.readByte (s.addrI k)) x0 (spriteRow y0 k) (drawRows s x0 y0 c k) 8

/-- 00E0 CLS (R160): every cell false, `draw_flag` raised, VF untouched. -/
def execCls (s : State) : Result := .next (s.showDisp clearDisp)

/-- The n-row draw itself (R161): VF is the collision, `draw_flag` is raised, even for n = 0. -/
def State.drawSprite (s : State) (xy : Byte × Byte) (n : Nat) : State :=
  let drawn := drawRows s xy.1 xy.2 (s.disp, false) n
  (s.setV Config.flagReg (b2n drawn.2)).showDisp drawn.1

/-- DXYN DRW Vx, Vy, n (R161): with n > 0 the whole sprite must lie in memory (R56). -/
def execDrw (x y : RegIdx) (n : Nibble) (s : State) : Result :=
  if n.toNat = 0 then .next (s.drawSprite (s.coordsOf x y) 0)
  else checkAddr .read (s.addrI (n.toNat - 1)) s fun s => .next (s.drawSprite (s.coordsOf x y) n.toNat)

end Sys2Proof.Machine
end

