-- ==== Sys2Proof/Machine/IndexMemory.lean ====
section
/-!
DEFINITION. The address register and the memory instructions (43_index_and_memory.md). No memory instruction
changes `I` (R146); each checks its highest address before its first byte moves (R56).
-/
namespace Sys2Proof.Machine

/-- ANNN LD I, nnn (R140). -/
def execLdI (nnn : Addr12) (s : State) : Result := .next (s.setI (zextAddr nnn))

/-- FX1E ADD I, Vx (R141): modulo 65536, no flag. -/
def execAddI (x : RegIdx) (s : State) : Result :=
  .next (s.setI (BitVec.ofNat 16 ((s.I.toNat + (s.getV x).toNat) % 65536)))

/-- FX29 LD F, Vx (R142). -/
def execLdFont (x : RegIdx) (s : State) : Result := .next (s.setI (fontAddr Config.fontHighNibble (s.getV x)))

/-- FX33 LD B, Vx (R143): three digits at I, I + 1, I + 2. -/
def execLdBcd (x : RegIdx) (s : State) : Result :=
  checkAddr .write (s.addrI 2) s fun s =>
    .next (s.setMem (Mem.writeBytes s.mem (s.addrI 0) (bcdDigits (s.getV x))))

/-- FX55 LD [I], Vx (R144): V0 to Vx inclusive to I, I + 1, ... -/
def execStoreRegs (x : RegIdx) (s : State) : Result :=
  checkAddr .write (s.addrI x.toNat) s fun s =>
    .next (s.setMem (Mem.writeBytes s.mem (s.addrI 0) (s.regBlock x)))

/-- FX65 LD Vx, [I] (R145): V0 to Vx inclusive from I, I + 1, ... -/
def execLoadRegs (x : RegIdx) (s : State) : Result :=
  checkAddr .read (s.addrI x.toNat) s fun s => .next (s.setRegs (s.regsFromMem x))

end Sys2Proof.Machine
end

