-- ==== Sys2Proof/Machine/Keypad.lean ====
section
/-!
DEFINITION. The keypad instructions and the key wait (46_keypad.md). The key wait holds no state of its own: it
steps `pc` back onto itself (R172, R173).
-/
namespace Sys2Proof.Machine

/-- The key V[x] selects, and what to do with its state; KeyIndexOutOfRange above 0x0F, before anything else
(R170, R171, R222). The index is the whole of V[x], not its low nibble. -/
def withKey (x : RegIdx) (s : State) (k : Bool → Result) : Result :=
  if h : (s.getV x).toNat < 16 then k s.keys[(s.getV x).toNat] else takeFault (.keyIndexOutOfRange (s.getV x)) s

/-- EX9E SKP Vx (R170): skip if the key is held. -/
def execSkp (x : RegIdx) (s : State) : Result := withKey x s fun held => .next (s.skipIf held)

/-- EXA1 SKNP Vx (R171): skip if the key is not held. -/
def execSknp (x : RegIdx) (s : State) : Result := withKey x s fun held => .next (s.skipIf (!held))

/-- FX0A LD Vx, K (R172): the least held key's index, or back onto this instruction when none is held. -/
def execLdVxKey (x : RegIdx) (s : State) : Result :=
  match leastHeld s.keys with
  | some k => .next (s.setV x (BitVec.ofNat 8 k))
  | none => .next s.rewindPc

end Sys2Proof.Machine
end

