-- ==== Sys2Proof/Machine/Random.lean ====
section
/-!
DEFINITION. CXNN (44_random.md). The byte drawn is the free value `Config.randomByte` at a fresh index (R151,
logs 12 and 13): nothing constrains it, and no index is used twice.
-/
namespace Sys2Proof.Machine

/-- CXNN RND Vx, nn (R150). -/
def execRnd (x : RegIdx) (nn : Byte) (s : State) : Result :=
  .next (s.nextDraw.setV x (Config.randomByte s.draws &&& nn))

end Sys2Proof.Machine
end

