-- ==== Sys2Proof/Machine/Skips.lean ====
section
/-!
DEFINITION. The conditional skips on registers (41_skips.md): each compares for equality and skips by R114.
-/
namespace Sys2Proof.Machine

/-- 3XNN SE Vx, nn (R110). -/
def execSeImm (x : RegIdx) (nn : Byte) (s : State) : Result := .next (s.skipIf (s.getV x == nn))

/-- 4XNN SNE Vx, nn (R111). -/
def execSneImm (x : RegIdx) (nn : Byte) (s : State) : Result := .next (s.skipIf (s.getV x != nn))

/-- 5XY0 SE Vx, Vy (R112). -/
def execSeReg (x y : RegIdx) (s : State) : Result := .next (s.skipIf (s.getV x == s.getV y))

/-- 9XY0 SNE Vx, Vy (R113). -/
def execSneReg (x y : RegIdx) (s : State) : Result := .next (s.skipIf (s.getV x != s.getV y))

end Sys2Proof.Machine
end

