-- ==== Sys2Proof/Machine/Timers.lean ====
section
/-!
DEFINITION. The timer instructions (47_timers.md) and the timer decrementer (48_frame_sequencer_and_host.md rule
R192). Timers are held scaled by P = TIMER_PRECISION (10_state.md rule R28, log 8).
-/
namespace Sys2Proof.Machine

/-- FX07 LD Vx, DT (R180): the logical value, `floor(dt_s / P)`. -/
def execLdVxDt (x : RegIdx) (s : State) : Result :=
  .next (s.setV x (BitVec.ofNat 8 (s.dtS / Config.timerPrecision)))

/-- FX15 LD DT, Vx (R181). -/
def execLdDtVx (x : RegIdx) (s : State) : Result := .next (s.setDt ((s.getV x).toNat * Config.timerPrecision))

/-- FX18 LD ST, Vx (R182). -/
def execLdStVx (x : RegIdx) (s : State) : Result := .next (s.setSt ((s.getV x).toNat * Config.timerPrecision))

/-- The decrement of one frame at `fps` frames per second, `floor(60 * P / fps)` (R28, R192). -/
def timerDecrement (fps : Nat) : Nat := Config.timerHz * Config.timerPrecision / fps

/-- advance_timers: both timers less the decrement, each clamped at 0 on its own (R192). Called only with
`cfgFps` not 0 (log 24). -/
def advanceTimers (s : State) : State :=
  (s.setDt (s.dtS - timerDecrement s.cfgFps)).setSt (s.stS - timerDecrement s.cfgFps)

end Sys2Proof.Machine
end

