-- ==== Sys2Proof/Machine/HostOps.lean ====
section
/-!
DEFINITION. The operations of the host that run no instruction (48_frame_sequencer_and_host.md rules R194 to R201,
70_reset_and_hazards.md rule R230): each is one indivisible transaction, and leaves what it returns in `reply`.
While the core is halted the writes of configuration and program change nothing and return the latched fault; key
writes and observers still work (60_exceptions.md rule R219; log 21).
-/
namespace Sys2Proof.Machine

/-- An operation ends and returns `r`; none is no output (R194; log 18). -/
def State.answer (s : State) (r : Option Reply) : State := { s with reply := r }

/-- An operation that does nothing on a halted core but return the fault (R219). -/
def unlessHalted (s : State) (k : State) : State :=
  match s.fault with
  | some f => s.answer (some (.fault f))
  | none => k

/-- An operation raises: the latch is set and the fault returned (R217). -/
def State.failWith (s : State) (f : FaultValue) : State := (s.raise f).answer (some (.fault f))

/-- reset (R230): every element at its reset value, the latch clear. What belongs to the host and the oracle is
not the core's: the queued operations stay, and draws stay fresh (log 27). -/
def hostReset (s : State) : State := { State.reset with hostOps := s.hostOps, draws := s.draws }

/-- setFrameRate(fps) (R196): 0 is refused and leaves the register as it was (R214). -/
def setFrameRate (fps : Nat) (s : State) : State :=
  unlessHalted s
    (if fps = 0 then s.failWith (.configurationError .frameRate 0)
     else { s with cfgFps := fps }.answer (some .ok))

/-- setClockSpeed(c) (R197): 0 is refused and leaves the register as it was (R214). -/
def setClockSpeed (c : Nat) (s : State) : State :=
  unlessHalted s
    (if c = 0 then s.failWith (.configurationError .clockSpeed 0)
     else { s with cfgClock := c }.answer (some .ok))

/-- loadProgram(bytes) (R195): the image at 0x200, or CapacityExceeded with no byte written. -/
def loadImage (bytes : List Byte) (s : State) : State :=
  if Config.progMax < bytes.length then s.failWith (.capacityExceeded bytes.length)
  else { s with mem := Mem.writeBytes s.mem Config.progBase bytes, loaded := true }.answer (some .ok)

/-- loadProgram as the host may use it: nothing on a halted core, and no move for a second load or a load after
execution has begun (R195, R204, U15; log 19). -/
def loadProgram (bytes : List Byte) (s : State) : Result :=
  match s.fault with
  | some f => .next (s.answer (some (.fault f)))
  | none => if s.loaded then .refused .secondLoad else .next (loadImage bytes s)

/-- The host writes the sixteen keys (R201). -/
def writeKeys (held : Vector Bool 16) (s : State) : State := { s with keys := held }.answer none

/-- consumeDrawFlag (R198): return the flag and clear it. -/
def consumeDrawFlag (s : State) : State := { s with drawFlag := false }.answer (some (.bool s.drawFlag))

/-- getDisplay (R199): the grid at the moment of the call; nothing changes. -/
def getDisplay (s : State) : State := s.answer (some (.display s.disp))

/-- The tone signal `st_s != 0`, on the scaled value (R200, D14). -/
def State.beeping (s : State) : Bool := s.stS != 0

/-- shouldBeep (R200). -/
def shouldBeep (s : State) : State := s.answer (some (.bool s.beeping))

/-- The host reads the fault latch (R220). -/
def readFault (s : State) : State := s.answer (some (.latch s.fault))

end Sys2Proof.Machine
end

