-- ==== Sys2Proof/Machine/Frame.lean ====
section
/-!
DEFINITION. The cycle (30_encoding.md rule R85), the frame sequencer (48_frame_sequencer_and_host.md rules R190 to
R193), and the moves of a session: the host acts only between operations, never inside a frame (R203). One step of
the model is one cycle or one host operation; a frame's first cycle goes with its call, and its timer advance with
its last cycle (log 17).
-/
namespace Sys2Proof.Machine

/-! ### The cycle -/

/-- Dispatch the fetched bytes, with `pc` already advanced: the instruction's meaning, or UnknownInstruction
(R77, R85, R212). The cycle gives two bytes, so `tooShort` never comes (log 31). -/
def dispatchBytes (bytes : List Byte) (s : State) : Result :=
  match decode bytes with
  | .ok (i, _) => exec i s
  | .error (.unknownInstruction w) => takeFault (.unknownInstruction w) s
  | .error .tooShort => .next s

/-- One cycle (R85): nothing when halted (R219); a fetch fault leaves `pc` where it was; otherwise `pc` advances and
the word is dispatched. -/
def cycle (s : State) : Result :=
  match s.fault with
  | some _ => .next s
  | none =>
    match fetchBytes s with
    | .error f => takeFault f s
    | .ok bytes => dispatchBytes bytes s.advancePc

/-! ### The frame sequencer, whole -/

/-- The budget of a frame, `floor(cfg_clock / cfg_fps)` (R191). -/
def State.budget (s : State) : Nat := s.cfgClock / s.cfgFps

/-- Up to `n` cycles, abandoned at the first fault (R190). -/
def runCycles : Nat → State → Result
  | 0, s => .next s
  | n + 1, s => (cycle s).andThen fun t => if t.fault.isSome then .next t else runCycles n t

/-- How a frame ends (R190): at a fault with no timer advance (R206), otherwise with exactly one. -/
def endFrame (s : State) : State :=
  match s.fault with
  | some f => { s with frameLeft := 0 }.answer (some (.fault f))
  | none => { advanceTimers s with frameLeft := 0 }.answer (some .ok)

/-- executeFrame as R190 writes it, in one operation. Step runs the same frame cycle by cycle, by `beginFrame` and
`frameCycle`. -/
def executeFrame (s : State) : Result :=
  match s.fault with
  | some f => .next (s.answer (some (.fault f)))
  | none =>
    if s.cfgFps = 0 then .fault .zeroFrameRate
    else (runCycles s.budget s).andThen fun t => .next (endFrame t)

/-! ### The frame sequencer, cycle by cycle -/

/-- After a cycle with `left` cycles still in the budget: the frame ends at a fault or when none is left (R190). -/
def afterCycle (left : Nat) (s : State) : State :=
  if s.fault.isSome || left == 0 then endFrame s else { s with frameLeft := left }

/-- The next cycle of a frame that has `left + 1` cycles to run (R190). -/
def frameCycle (left : Nat) (s : State) : Result :=
  if s.cfgFps = 0 then .fault .zeroFrameRate
  else (cycle s).andThen fun t => .next (afterCycle left t)

/-- The call of executeFrame (R190): the latched fault when halted, else the budget's first cycle, or the timer
advance alone when the budget is 0 (R191). -/
def beginFrame (s : State) : Result :=
  match s.fault with
  | some f => .next (s.answer (some (.fault f)))
  | none =>
    if s.cfgFps = 0 then .fault .zeroFrameRate
    else
      match s.budget with
      | 0 => .next (endFrame s)
      | left + 1 => frameCycle left s

/-- executeOneCycle (R193): one cycle, no timer advance; it returns ok or the fault. -/
def executeOneCycle (s : State) : Result :=
  (cycle s).andThen fun t =>
    .next (t.answer (some (match t.fault with | some f => .fault f | none => .ok)))

/-! ### The session -/

/-- Only a halted core or a loaded one may be run (R203, U15; log 19). -/
def ifRunnable (s : State) (k : State → Result) : Result :=
  if s.loaded || s.fault.isSome then k s else .refused .runBeforeLoad

/-- The host performs one operation (R194). -/
def hostMove (op : HostOp) (s : State) : Result :=
  match op with
  | .reset => .next (hostReset s)
  | .setFrameRate fps => .next (setFrameRate fps s)
  | .setClockSpeed c => .next (setClockSpeed c s)
  | .loadProgram bytes => loadProgram bytes s
  | .writeKeys held => .next (writeKeys held s)
  | .executeFrame => ifRunnable s beginFrame
  | .executeOneCycle => ifRunnable s executeOneCycle
  | .consumeDrawFlag => .next (consumeDrawFlag s)
  | .getDisplay => .next (getDisplay s)
  | .shouldBeep => .next (shouldBeep s)
  | .readFault => .next (readFault s)

/-- The next move of a session (R203): inside a frame its next cycle; between operations the host's next one; with
none queued, another executeFrame once a program is loaded, and before that nothing (log 16). -/
def sessionMove (s : State) : Result :=
  match s.frameLeft with
  | left + 1 => frameCycle left s
  | 0 =>
    match s.hostOps with
    | op :: rest => hostMove op { s with hostOps := rest }
    | [] => if s.loaded then beginFrame s else .next s

end Sys2Proof.Machine
end

