-- ==== Sys2Proof/Machine/Step.lean ====
section
/-!
DEFINITION. One step of the machine, and the placing of an instruction where the next step runs it.
-/
namespace Sys2Proof.Machine

/-- One step: the next move of the session (R203). -/
def step (s : State) : Host.Outcome State Fault Refusal := sessionMove s

/-- `s` with the instruction word `w` where `pc` points, high byte first (R53), made the next thing to run: the
placing stands for the load (R195), so the session is loaded and no fault is latched; between operations the host
single-steps it with executeOneCycle (R193), inside a frame it is the frame's next cycle (log 22). -/
def State.withFetchWord (s : State) (nbits w : Nat) : State :=
  { s with
    mem := Mem.writeBytes s.mem s.pc.toNat [highByte (tableWord nbits w), lowByte (tableWord nbits w)]
    fault := none
    loaded := true
    hostOps := if s.frameLeft = 0 then .executeOneCycle :: s.hostOps else s.hostOps }

end Sys2Proof.Machine
end

