-- ==== Sys2Proof/Safety.lean ====
section
/-!
DEFINITION. What counts as a safe run, the invariants the spec states of every reachable state (10_state.md rules
R24, R25, R39), and the words statements about frames are written in: which parts of the state two states share
(10_state.md rule R38).
-/
namespace Sys2Proof.Machine

/-! ### Safety -/

/-- The core is halted exactly when its fault latch is not none (R219). -/
def State.halted (s : State) : Bool := s.fault.isSome

/-- A run is safe while no fault is latched: a run that reaches the halted state has gone wrong (R219). -/
def State.safe (s : State) : Bool := s.fault.isNone

/-- The program's own statement that it is done: the word at `pc` is a 1NNN whose nnn equals `pc` (R244, D32). -/
def State.idles (s : State) : Bool :=
  match fetchBytes s with
  | .ok bytes =>
    match decode bytes with
    | .ok (.jp nnn, _) => zextAddr nnn == s.pc
    | _ => false
  | .error _ => false

/-! ### Invariants -/

/-- The memory has its canonical form (log 7). -/
def MemCanonical (s : State) : Prop := Mem.wf s.mem = true

/-- Both scaled timers are in 0 to 255 * P (R28, R39). -/
def TimersInRange (s : State) : Prop :=
  s.dtS ≤ 255 * Config.timerPrecision ∧ s.stS ≤ 255 * Config.timerPrecision

/-- Both configuration registers are positive (R32, R39). -/
def ConfigPositive (s : State) : Prop := 1 ≤ s.cfgFps ∧ 1 ≤ s.cfgClock

/-- The latch never holds IOFailure, which the core does not raise (R214). -/
def LatchPossible (s : State) : Prop := s.fault ≠ some .ioFailure

/-- A frame in progress has a loaded program, no fault, and at most its budget of cycles to run (R190, R191). -/
def FrameConsistent (s : State) : Prop :=
  s.frameLeft ≠ 0 → s.fault = none ∧ s.loaded = true ∧ s.frameLeft ≤ s.budget

/-- `pc` and every live stack slot stay where sequential execution, skips, jumps, calls and returns can take them:
at most 0x10FE, and at most 0x1000 for a saved one (R24). -/
def PcBounded (s : State) : Prop :=
  s.pc.toNat ≤ 0x10FE ∧ ∀ k : Fin Config.stackDepth, k.val < s.sp.val → s.stack[k].toNat ≤ 0x1000

/-- The values the reset operation fixes: pc, the clear display, the font table, the empty stack, no fault, 60 and 700
(R36, R230). -/
def HasResetValues (s : State) : Prop :=
  s.pc = 0x200 ∧ (∀ cx cy, s.disp.cell cx cy = false) ∧
    (∀ k (h : k < Config.fontSize),
      s.readByte (Config.fontBase + k) = fontTable[k]'(by simpa [fontTable, fontLow, fontHigh] using h)) ∧
    s.sp.val = 0 ∧ s.fault = none ∧ s.cfgFps = 60 ∧ s.cfgClock = 700

/-! ### What two states share -/

/-- Every general register but those `p` names is unchanged. -/
def RegsKeptBut (p : RegIdx → Prop) (s t : State) : Prop := ∀ i, ¬ p i → t.getV i = s.getV i

/-- Every byte of memory but those `p` names reads as before. -/
def BytesKeptBut (p : Nat → Prop) (s t : State) : Prop := ∀ a, ¬ p a → t.readByte a = s.readByte a

/-- No register is named: all are kept. -/
def noReg : RegIdx → Prop := fun _ => False

/-- No byte is named: all of memory is kept. -/
def noByte : Nat → Prop := fun _ => False

/-- The `len` bytes from address `a` on. -/
def bytesFrom (a len : Nat) : Nat → Prop := fun b => a ≤ b ∧ b < a + len

/-- The parts of the state an instruction may write besides registers and memory (R38), and the draw counter. -/
inductive Part where
  | pc
  | addrReg
  | slots
  | sp
  | delay
  | sound
  | display
  | latch
  | draws
  deriving DecidableEq, Repr

/-- The part is unchanged. The display is the buffer with `draw_flag`. -/
def PartKept (s t : State) : Part → Prop
  | .pc => t.pc = s.pc
  | .addrReg => t.I = s.I
  | .slots => t.stack = s.stack
  | .sp => t.sp = s.sp
  | .delay => t.dtS = s.dtS
  | .sound => t.stS = s.stS
  | .display => t.disp = s.disp ∧ t.drawFlag = s.drawFlag
  | .latch => t.fault = s.fault
  | .draws => t.draws = s.draws

/-- What no instruction may write is unchanged: keys, configuration (R31, R32), and the model's session fields. -/
def HostSideKept (s t : State) : Prop :=
  t.keys = s.keys ∧ t.cfgFps = s.cfgFps ∧ t.cfgClock = s.cfgClock ∧ t.frameLeft = s.frameLeft ∧
    t.loaded = s.loaded ∧ t.hostOps = s.hostOps ∧ t.reply = s.reply

/-- Nothing is changed but the registers `regs` names, the bytes `bytes` names, and the parts listed. -/
def SameBut (regs : RegIdx → Prop) (bytes : Nat → Prop) (parts : List Part) (s t : State) : Prop :=
  RegsKeptBut regs s t ∧ BytesKeptBut bytes s t ∧ (∀ p, p ∉ parts → PartKept s t p) ∧ HostSideKept s t

/-! ### The access table (R38) -/

/-- The families of the instruction set: one per spec file 40 to 47. -/
inductive Family where
  | control
  | skips
  | alu
  | indexMemory
  | random
  | display
  | keypad
  | timers
  deriving DecidableEq, Repr

/-- The family of an instruction. -/
def familyOf : Instr → Family
  | .cls => .display
  | .ret => .control
  | .jp _ => .control
  | .call _ => .control
  | .seImm _ _ => .skips
  | .sneImm _ _ => .skips
  | .seReg _ _ => .skips
  | .ldImm _ _ => .alu
  | .addImm _ _ => .alu
  | .ldReg _ _ => .alu
  | .orReg _ _ => .alu
  | .andReg _ _ => .alu
  | .xorReg _ _ => .alu
  | .addReg _ _ => .alu
  | .sub _ _ => .alu
  | .shr _ _ => .alu
  | .subn _ _ => .alu
  | .shl _ _ => .alu
  | .sneReg _ _ => .skips
  | .ldI _ => .indexMemory
  | .jpV0 _ => .control
  | .rnd _ _ => .random
  | .drw _ _ _ => .display
  | .skp _ => .keypad
  | .sknp _ => .keypad
  | .ldVxDt _ => .timers
  | .ldVxKey _ => .keypad
  | .ldDtVx _ => .timers
  | .ldStVx _ => .timers
  | .addI _ => .indexMemory
  | .ldFont _ => .indexMemory
  | .ldBcd _ => .indexMemory
  | .storeRegs _ => .indexMemory
  | .loadRegs _ => .indexMemory

/-- The registers an instruction may write: the "writes" column of R38, with VF for the six of R22. -/
def writesReg : Instr → RegIdx → Prop
  | .ldImm x _, i => i = x
  | .addImm x _, i => i = x
  | .ldReg x _, i => i = x
  | .orReg x _, i => i = x
  | .andReg x _, i => i = x
  | .xorReg x _, i => i = x
  | .addReg x _, i => i = x ∨ i = Config.flagReg
  | .sub x _, i => i = x ∨ i = Config.flagReg
  | .shr x _, i => i = x ∨ i = Config.flagReg
  | .subn x _, i => i = x ∨ i = Config.flagReg
  | .shl x _, i => i = x ∨ i = Config.flagReg
  | .rnd x _, i => i = x
  | .drw _ _ _, i => i = Config.flagReg
  | .ldVxDt x, i => i = x
  | .ldVxKey x, i => i = x
  | .loadRegs x, i => i.toNat ≤ x.toNat
  | .cls, _ => False
  | .ret, _ => False
  | .jp _, _ => False
  | .call _, _ => False
  | .seImm _ _, _ => False
  | .sneImm _ _, _ => False
  | .seReg _ _, _ => False
  | .sneReg _ _, _ => False
  | .ldI _, _ => False
  | .jpV0 _, _ => False
  | .skp _, _ => False
  | .sknp _, _ => False
  | .ldDtVx _, _ => False
  | .ldStVx _, _ => False
  | .addI _, _ => False
  | .ldFont _, _ => False
  | .ldBcd _, _ => False
  | .storeRegs _, _ => False

/-- The bytes an instruction may write in a state: only FX33 and FX55 store, from `I` on (R38, R57). -/
def writesByte (s : State) : Instr → Nat → Prop
  | .ldBcd _ => bytesFrom (s.addrI 0) 3
  | .storeRegs x => bytesFrom (s.addrI 0) (x.toNat + 1)
  | .cls => noByte
  | .ret => noByte
  | .jp _ => noByte
  | .call _ => noByte
  | .seImm _ _ => noByte
  | .sneImm _ _ => noByte
  | .seReg _ _ => noByte
  | .ldImm _ _ => noByte
  | .addImm _ _ => noByte
  | .ldReg _ _ => noByte
  | .orReg _ _ => noByte
  | .andReg _ _ => noByte
  | .xorReg _ _ => noByte
  | .addReg _ _ => noByte
  | .sub _ _ => noByte
  | .shr _ _ => noByte
  | .subn _ _ => noByte
  | .shl _ _ => noByte
  | .sneReg _ _ => noByte
  | .ldI _ => noByte
  | .jpV0 _ => noByte
  | .rnd _ _ => noByte
  | .drw _ _ _ => noByte
  | .skp _ => noByte
  | .sknp _ => noByte
  | .ldVxDt _ => noByte
  | .ldVxKey _ => noByte
  | .ldDtVx _ => noByte
  | .ldStVx _ => noByte
  | .addI _ => noByte
  | .ldFont _ => noByte
  | .loadRegs _ => noByte

/-- The other parts an instruction may write (R38); the latch for the eight that can raise (R211), the draw counter
for CXNN (log 13). -/
def writesParts : Instr → List Part
  | .cls => [.display]
  | .ret => [.sp, .pc, .latch]
  | .jp _ => [.pc]
  | .call _ => [.slots, .sp, .pc, .latch]
  | .seImm _ _ => [.pc]
  | .sneImm _ _ => [.pc]
  | .seReg _ _ => [.pc]
  | .ldImm _ _ => []
  | .addImm _ _ => []
  | .ldReg _ _ => []
  | .orReg _ _ => []
  | .andReg _ _ => []
  | .xorReg _ _ => []
  | .addReg _ _ => []
  | .sub _ _ => []
  | .shr _ _ => []
  | .subn _ _ => []
  | .shl _ _ => []
  | .sneReg _ _ => [.pc]
  | .ldI _ => [.addrReg]
  | .jpV0 _ => [.pc]
  | .rnd _ _ => [.draws]
  | .drw _ _ _ => [.display, .latch]
  | .skp _ => [.pc, .latch]
  | .sknp _ => [.pc, .latch]
  | .ldVxDt _ => []
  | .ldVxKey _ => [.pc]
  | .ldDtVx _ => [.delay]
  | .ldStVx _ => [.sound]
  | .addI _ => [.addrReg]
  | .ldFont _ => [.addrReg]
  | .ldBcd _ => [.latch]
  | .storeRegs _ => [.latch]
  | .loadRegs _ => [.latch]

/-- The instruction's frame: nothing the access table does not name is changed (R38). -/
def InFrame (i : Instr) (s t : State) : Prop := SameBut (writesReg i) (writesByte s i) (writesParts i) s t

/-! ### The sprite on the display (R161, R162) -/

/-- The sprite at `I`, drawn from (x0, y0) with `n` rows, has a 1 bit for the cell: the cell is its pixel of column c
and row r, both counted from the start coordinate with wrap (R162). -/
def spriteLit (s : State) (x0 y0 : Byte) (n : Nat) (cx : Fin 64) (cy : Fin 32) : Bool :=
  let c := (cx.val + 64 - x0.toNat % 64) % 64
  let r := (cy.val + 32 - y0.toNat % 32) % 32
  decide (c < 8) && decide (r < n) && (s.readByte (s.addrI r)).getLsbD (7 - c)

/-- Some cell under a 1 bit of the sprite is lit in `d`. -/
def Collides (s : State) (x0 y0 : Byte) (n : Nat) (d : Disp) : Prop :=
  ∃ cx cy, spriteLit s x0 y0 n cx cy = true ∧ d.cell cx cy = true

/-- `t` is `s` after the draw: every cell exclusive-or its sprite bit, VF the collision, `draw_flag` raised, and
nothing else changed (R161). -/
def Drawn (x0 y0 : Byte) (n : Nat) (s t : State) : Prop :=
  (∀ cx cy, t.disp.cell cx cy = (s.disp.cell cx cy ^^ spriteLit s x0 y0 n cx cy)) ∧
    (Collides s x0 y0 n s.disp → t.getV Config.flagReg = 1) ∧
    (¬ Collides s x0 y0 n s.disp → t.getV Config.flagReg = 0) ∧
    t.drawFlag = true ∧ SameBut (· = Config.flagReg) noByte [.display] s t

/-- The whole sprite of `n` rows at `I` lies in memory (R161). -/
def SpriteInMemory (s : State) (n : Nat) : Prop := n = 0 ∨ s.I.toNat + n - 1 ≤ 0xFFF

end Sys2Proof.Machine
end

