-- ==== Sys2Proof/Certificates/Slice0/Obligations.lean ====
section
/-!
DEFINITION. The statements for the provers, from the numbered rules of spec/. No statement rests on a value of a free
parameter (logs 8, 9, 11, 12): each holds for every value. Only the two statements about reset rest on reset values the
model chose, and name their logs. Where a clause rests on a decision the spec marks as its own (the D rows of
92_eei_decisions.md, log 25), the docstring names it.
-/
open Sys2Proof Sys2Proof.Machine

/-! ### Encoding -/

/-- Decoding the two bytes of an instruction gives it back, with the bytes after it (R70, R71, R75). -/
def Obligations.DecodeOfEncodeIsTheInstruction : Prop :=
  ∀ (i : Instr) (rest : List Byte), decode (encodeBytes i ++ rest) = .ok (i, rest)

/-- A word that decodes is the word of its instruction: no bit of it is dropped (R71, R75, R78). -/
def Obligations.EncodeOfDecodeIsTheWord : Prop :=
  ∀ (w : Word) (i : Instr), decodeWord w = some i → encode i = w

/-- The decoder's two-level dispatch (R76) accepts exactly the words of the opcode map, and gives each the
instruction of the row it matches (R75). -/
def Obligations.DecoderAgreesWithOpcodeMap : Prop :=
  ∀ w : Word, (decodeWord w).isSome = wellFormedWord w ∧
    ∀ i, decodeWord w = some i → w &&& i.row.mask = i.row.pat

/-- No word matches two rows of the opcode map (R75). -/
def Obligations.NoWordMatchesTwoRows : Prop :=
  opcodeRows.length = 34 ∧ ∀ w : Word, (opcodeRows.filter fun r => r.matchesWord w).length ≤ 1

/-- The illegal words, class by class (R76, R77; classes 0, 5 and 9 by the spec's decisions D7 and D8, log 25). -/
def Obligations.IllegalWordsAreThoseOfTheTable : Prop :=
  ∀ w : Word, decodeWord w = none ↔
    (opField w = 0x0 ∧ w ≠ 0x00E0 ∧ w ≠ 0x00EE) ∨
    (opField w = 0x5 ∧ nField w ≠ 0) ∨
    (opField w = 0x8 ∧ nField w ∈ ([0x8, 0x9, 0xA, 0xB, 0xC, 0xD, 0xF] : List Nibble)) ∨
    (opField w = 0x9 ∧ nField w ≠ 0) ∨
    (opField w = 0xE ∧ nnField w ∉ ([0x9E, 0xA1] : List Byte)) ∨
    (opField w = 0xF ∧ nnField w ∉ ([0x07, 0x0A, 0x15, 0x18, 0x1E, 0x29, 0x33, 0x55, 0x65] : List Byte))

/-- Words written out from R75 and from 95_test_vectors.md decode as they should; 0x8ABF is illegal (S11). -/
def Obligations.SampleWordsDecode : Prop :=
  [0x00EE, 0x120A, 0x332A, 0x6A2F, 0x82F6, 0xD12F, 0xE0A1, 0xF30A, 0xF065, 0x8ABF].map decodeWord =
    [some .ret, some (.jp 0x20A), some (.seImm 0x3 0x2A), some (.ldImm 0xA 0x2F), some (.shr 0x2 0xF),
      some (.drw 0x1 0x2 0xF), some (.sknp 0x0), some (.ldVxKey 0x3), some (.loadRegs 0x0), none]

/-! ### Register loads and the ALU -/

/-- 6XNN and 8XY0 load their source and change nothing else (R120, R122). -/
def Obligations.LoadsCopyTheirSource : Prop :=
  ∀ (x y : RegIdx) (nn : Byte) (s : State),
    (decodeWord (wordXK 0x6 x nn) = some (.ldImm x nn) ∧
      ∃ t, exec (.ldImm x nn) s = .next t ∧ t.getV x = nn ∧ SameBut (· = x) noByte [] s t) ∧
    (decodeWord (wordXY 0x8 x y 0x0) = some (.ldReg x y) ∧
      ∃ t, exec (.ldReg x y) s = .next t ∧ t.getV x = s.getV y ∧ SameBut (· = x) noByte [] s t)

/-- 7XNN adds modulo 256 and writes no flag: every register but V[x], VF among them, is kept (R121; no flag
by the spec's decision D23, log 25). -/
def Obligations.AddImmediateWrapsAndSetsNoFlag : Prop :=
  ∀ (x : RegIdx) (nn : Byte) (s : State),
    decodeWord (wordXK 0x7 x nn) = some (.addImm x nn) ∧
      ∃ t, exec (.addImm x nn) s = .next t ∧ (t.getV x).toNat = ((s.getV x).toNat + nn.toNat) % 256 ∧
        SameBut (· = x) noByte [] s t

/-- 8XY1, 8XY2 and 8XY3 are or, and, exclusive or, bit by bit; VF is left unchanged unless it is V[x]
(R123, R124, R125; VF by the spec's decision D9, log 25). -/
def Obligations.LogicInstructionsLeaveFlagAlone : Prop :=
  ∀ (x y : RegIdx) (s : State),
    (decodeWord (wordXY 0x8 x y 0x1) = some (.orReg x y) ∧
      ∃ t, exec (.orReg x y) s = .next t ∧ SameBut (· = x) noByte [] s t ∧
        ∀ k, (t.getV x).getLsbD k = ((s.getV x).getLsbD k || (s.getV y).getLsbD k)) ∧
    (decodeWord (wordXY 0x8 x y 0x2) = some (.andReg x y) ∧
      ∃ t, exec (.andReg x y) s = .next t ∧ SameBut (· = x) noByte [] s t ∧
        ∀ k, (t.getV x).getLsbD k = ((s.getV x).getLsbD k && (s.getV y).getLsbD k)) ∧
    (decodeWord (wordXY 0x8 x y 0x3) = some (.xorReg x y) ∧
      ∃ t, exec (.xorReg x y) s = .next t ∧ SameBut (· = x) noByte [] s t ∧
        ∀ k, (t.getV x).getLsbD k = ((s.getV x).getLsbD k ^^ (s.getV y).getLsbD k))

/-- 8XY4: the sum modulo 256, and VF 1 exactly when it exceeds 255 (R126; with a field 0xF see
VfAliasFollowsTheParameter). -/
def Obligations.AddSetsCarry : Prop :=
  ∀ (x y : RegIdx) (s : State), x ≠ 0xF → y ≠ 0xF →
    decodeWord (wordXY 0x8 x y 0x4) = some (.addReg x y) ∧
      ∃ t, exec (.addReg x y) s = .next t ∧
        (t.getV x).toNat = ((s.getV x).toNat + (s.getV y).toNat) % 256 ∧
        t.getV 0xF = (if (s.getV x).toNat + (s.getV y).toNat > 255 then 1 else 0) ∧
        SameBut (fun i => i = x ∨ i = 0xF) noByte [] s t

/-- 8XY5 and 8XY7: the difference modulo 256, and VF 1 exactly when the minuend is at least the subtrahend
(R127, R129). -/
def Obligations.SubtractSetsNoBorrow : Prop :=
  ∀ (x y : RegIdx) (s : State), x ≠ 0xF → y ≠ 0xF →
    (decodeWord (wordXY 0x8 x y 0x5) = some (.sub x y) ∧
      ∃ t, exec (.sub x y) s = .next t ∧
        ((t.getV x).toNat : Int) = ((s.getV x).toNat - (s.getV y).toNat : Int) % 256 ∧
        t.getV 0xF = (if (s.getV x).toNat ≥ (s.getV y).toNat then 1 else 0) ∧
        SameBut (fun i => i = x ∨ i = 0xF) noByte [] s t) ∧
    (decodeWord (wordXY 0x8 x y 0x7) = some (.subn x y) ∧
      ∃ t, exec (.subn x y) s = .next t ∧
        ((t.getV x).toNat : Int) = ((s.getV y).toNat - (s.getV x).toNat : Int) % 256 ∧
        t.getV 0xF = (if (s.getV y).toNat ≥ (s.getV x).toNat then 1 else 0) ∧
        SameBut (fun i => i = x ∨ i = 0xF) noByte [] s t)

/-- 8XY6 and 8XYE shift V[x] in place by one, for every y, and VF is the bit shifted out (R128, R130). -/
def Obligations.ShiftsAreInPlaceAndSetBitShiftedOut : Prop :=
  ∀ (x y : RegIdx) (s : State), x ≠ 0xF →
    (decodeWord (wordXY 0x8 x y 0x6) = some (.shr x y) ∧
      ∃ t, exec (.shr x y) s = .next t ∧ (t.getV x).toNat = (s.getV x).toNat / 2 ∧
        (t.getV 0xF).toNat = (s.getV x).toNat % 2 ∧ SameBut (fun i => i = x ∨ i = 0xF) noByte [] s t) ∧
    (decodeWord (wordXY 0x8 x y 0xE) = some (.shl x y) ∧
      ∃ t, exec (.shl x y) s = .next t ∧ (t.getV x).toNat = (s.getV x).toNat * 2 % 256 ∧
        (t.getV 0xF).toNat = (s.getV x).toNat / 128 ∧ SameBut (fun i => i = x ∨ i = 0xF) noByte [] s t)

/-- VF as an operand of a flag-writing instruction: the three orders of the open parameter VF_ALIAS_ORDER (R131, the
spec's decision D10, log 9).
`r` and `f` are the result and the flag of the instruction's own rule on two operand values. The shifts have one
operand, so only x = 0xF concerns them. -/
def Obligations.VfAliasFollowsTheParameter : Prop :=
  ∀ (x y : RegIdx) (s : State),
    let outcome := fun (i : Instr) (y' : RegIdx) (r : Byte → Byte → Byte) (f : Byte → Byte → Bool) =>
      ∃ t, exec i s = .next t ∧ SameBut (fun j => j = x ∨ j = 0xF) noByte [] s t ∧
        let flag : Byte := if f (s.getV x) (s.getV y') then 1 else 0
        match Config.vfAliasOrder with
        | .flagLast => t.getV 0xF = flag ∧ (x ≠ 0xF → t.getV x = r (s.getV x) (s.getV y'))
        | .resultLast => t.getV x = r (s.getV x) (s.getV y') ∧ (x ≠ 0xF → t.getV 0xF = flag)
        | .flagFirstReread =>
          t.getV x = r (if x = 0xF then flag else s.getV x) (if y' = 0xF then flag else s.getV y') ∧
            (x ≠ 0xF → t.getV 0xF = flag)
    (x = 0xF ∨ y = 0xF →
      outcome (.addReg x y) y (fun a b => a + b) (fun a b => 255 < a.toNat + b.toNat) ∧
      outcome (.sub x y) y (fun a b => a - b) (fun a b => b.toNat ≤ a.toNat) ∧
      outcome (.subn x y) y (fun a b => b - a) (fun a b => a.toNat ≤ b.toNat)) ∧
    (x = 0xF →
      outcome (.shr x y) x (fun a _ => a >>> 1) (fun a _ => a.getLsbD 0) ∧
      outcome (.shl x y) x (fun a _ => a <<< 1) (fun a _ => a.getLsbD 7))

/-! ### Skips and control transfer -/

/-- 3XNN skips 2 more exactly when V[x] = nn, 4XNN exactly when not; nothing else changes (R110, R111). -/
def Obligations.ImmediateSkipsCompareForEquality : Prop :=
  ∀ (x : RegIdx) (nn : Byte) (s : State),
    (decodeWord (wordXK 0x3 x nn) = some (.seImm x nn) ∧
      ∃ t, exec (.seImm x nn) s = .next t ∧ SameBut noReg noByte [.pc] s t ∧
        t.pc.toNat = (if s.getV x = nn then (s.pc.toNat + 2) % 65536 else s.pc.toNat)) ∧
    (decodeWord (wordXK 0x4 x nn) = some (.sneImm x nn) ∧
      ∃ t, exec (.sneImm x nn) s = .next t ∧ SameBut noReg noByte [.pc] s t ∧
        t.pc.toNat = (if s.getV x ≠ nn then (s.pc.toNat + 2) % 65536 else s.pc.toNat))

/-- 5XY0 skips 2 more exactly when V[x] = V[y], 9XY0 exactly when not; nothing else changes (R112, R113). -/
def Obligations.RegisterSkipsCompareForEquality : Prop :=
  ∀ (x y : RegIdx) (s : State),
    (decodeWord (wordXY 0x5 x y 0x0) = some (.seReg x y) ∧
      ∃ t, exec (.seReg x y) s = .next t ∧ SameBut noReg noByte [.pc] s t ∧
        t.pc.toNat = (if s.getV x = s.getV y then (s.pc.toNat + 2) % 65536 else s.pc.toNat)) ∧
    (decodeWord (wordXY 0x9 x y 0x0) = some (.sneReg x y) ∧
      ∃ t, exec (.sneReg x y) s = .next t ∧ SameBut noReg noByte [.pc] s t ∧
        t.pc.toNat = (if s.getV x ≠ s.getV y then (s.pc.toNat + 2) % 65536 else s.pc.toNat))

/-- 1NNN jumps to nnn and BNNN to nnn + V0, not reduced to 12 bits (R102, R104; the spec's decision D6,
log 25). -/
def Obligations.JumpsLoadTheirTarget : Prop :=
  ∀ (nnn : Addr12) (s : State),
    (decodeWord (wordA 0x1 nnn) = some (.jp nnn) ∧
      ∃ t, exec (.jp nnn) s = .next t ∧ t.pc.toNat = nnn.toNat ∧ SameBut noReg noByte [.pc] s t) ∧
    (decodeWord (wordA 0xB nnn) = some (.jpV0 nnn) ∧
      ∃ t, exec (.jpV0 nnn) s = .next t ∧ t.pc.toNat = nnn.toNat + (s.getV 0).toNat ∧ t.pc.toNat ≤ 0x10FE ∧
        SameBut noReg noByte [.pc] s t)

/-- 2NNN with a free slot saves the advanced pc in stack[sp], counts it, and jumps; the other slots are kept
(R103; that the advanced pc is saved is the spec's derivation there; that a slot is free below 48 rests on the spec's
decision D2 on conflict C1, log 14, DEDUCED and unsafe beyond 16). -/
def Obligations.CallSavesReturnAddress : Prop :=
  ∀ (nnn : Addr12) (s : State) (h : s.sp.val < 48),
    decodeWord (wordA 0x2 nnn) = some (.call nnn) ∧
      ∃ t, exec (.call nnn) s = .next t ∧ t.stack[s.sp.val] = s.pc ∧ t.sp.val = s.sp.val + 1 ∧
        t.pc.toNat = nnn.toNat ∧ (∀ k (hk : k < 48), k ≠ s.sp.val → t.stack[k] = s.stack[k]) ∧
        SameBut noReg noByte [.slots, .sp, .pc] s t

/-- 00EE on a stack that holds a value takes the newest one back into pc; the slot keeps its contents (R101). -/
def Obligations.ReturnTakesNewestAddress : Prop :=
  ∀ (s : State) (h : 0 < s.sp.val),
    decodeWord 0x00EE = some .ret ∧
      ∃ t, exec .ret s = .next t ∧ t.sp.val = s.sp.val - 1 ∧
        t.pc = s.stack[s.sp.val - 1]'(by have := s.sp.isLt; omega) ∧ SameBut noReg noByte [.sp, .pc] s t

/-- 00EE on an empty stack raises StackUnderflow, 2NNN on a full one StackOverflow; only the latch is written
(R213, R215; StackOverflow is the spec's decision D3, the latch its decision D16, log 25; that full is sp = 48 rests on
its decision D2 on conflict C1, log 14, DEDUCED and unsafe beyond 16). -/
def Obligations.StackFaultsWriteOnlyTheLatch : Prop :=
  ∀ (nnn : Addr12) (s : State),
    (s.sp.val = 0 → exec .ret s = .next { s with fault := some .stackUnderflow }) ∧
    (s.sp.val = 48 → exec (.call nnn) s = .next { s with fault := some .stackOverflow })

/-! ### The address register and memory -/

/-- ANNN loads I; FX1E adds modulo 65536 and writes no flag (R140, R141; the spec's decision D6, log 25). -/
def Obligations.AddressRegisterLoadAndAdd : Prop :=
  ∀ (nnn : Addr12) (x : RegIdx) (s : State),
    (decodeWord (wordA 0xA nnn) = some (.ldI nnn) ∧
      ∃ t, exec (.ldI nnn) s = .next t ∧ t.I.toNat = nnn.toNat ∧ SameBut noReg noByte [.addrReg] s t) ∧
    (decodeWord (wordXK 0xF x 0x1E) = some (.addI x) ∧
      ∃ t, exec (.addI x) s = .next t ∧ t.I.toNat = (s.I.toNat + (s.getV x).toNat) % 65536 ∧
        SameBut noReg noByte [.addrReg] s t)

/-- FX29 gives the glyph's address for 0 to 15, and above that what the open parameter FX29_HIGH_NIBBLE says
(R142, the spec's decision D11, log 11). -/
def Obligations.GlyphAddressOfDigit : Prop :=
  ∀ (x : RegIdx) (s : State),
    decodeWord (wordXK 0xF x 0x29) = some (.ldFont x) ∧
      ∃ t, exec (.ldFont x) s = .next t ∧ SameBut noReg noByte [.addrReg] s t ∧
        if (s.getV x).toNat ≤ 0x0F then t.I.toNat = 0x050 + 5 * (s.getV x).toNat
        else match Config.fontHighNibble with
          | .mask => t.I.toNat = 0x050 + 5 * ((s.getV x).toNat % 16)
          | .nomask => t.I.toNat = 0x050 + 5 * (s.getV x).toNat

/-- FX33 within memory stores hundreds, tens and units at I, I + 1, I + 2: three decimal digits whose value is V[x];
no other byte changes (R143). -/
def Obligations.BcdStoresThreeDigits : Prop :=
  ∀ (x : RegIdx) (s : State), MemCanonical s → s.I.toNat + 2 ≤ 0xFFF →
    decodeWord (wordXK 0xF x 0x33) = some (.ldBcd x) ∧
      ∃ t, exec (.ldBcd x) s = .next t ∧
        100 * (t.readByte s.I.toNat).toNat + 10 * (t.readByte (s.I.toNat + 1)).toNat +
          (t.readByte (s.I.toNat + 2)).toNat = (s.getV x).toNat ∧
        (t.readByte s.I.toNat).toNat ≤ 2 ∧ (t.readByte (s.I.toNat + 1)).toNat ≤ 9 ∧
        (t.readByte (s.I.toNat + 2)).toNat ≤ 9 ∧
        SameBut noReg (bytesFrom (s.addrI 0) 3) [] s t

/-- FX55 within memory stores V0 to Vx inclusive at I, I + 1, ...; no other byte changes (R144). -/
def Obligations.StoreRegistersInclusive : Prop :=
  ∀ (x : RegIdx) (s : State), MemCanonical s → s.I.toNat + x.toNat ≤ 0xFFF →
    decodeWord (wordXK 0xF x 0x55) = some (.storeRegs x) ∧
      ∃ t, exec (.storeRegs x) s = .next t ∧
        (∀ i : RegIdx, i.toNat ≤ x.toNat → t.readByte (s.I.toNat + i.toNat) = s.getV i) ∧
        SameBut noReg (bytesFrom (s.addrI 0) (x.toNat + 1)) [] s t

/-- FX65 within memory loads V0 to Vx inclusive from I, I + 1, ...; the other registers and memory are kept
(R145). -/
def Obligations.LoadRegistersInclusive : Prop :=
  ∀ (x : RegIdx) (s : State), s.I.toNat + x.toNat ≤ 0xFFF →
    decodeWord (wordXK 0xF x 0x65) = some (.loadRegs x) ∧
      ∃ t, exec (.loadRegs x) s = .next t ∧
        (∀ i : RegIdx, i.toNat ≤ x.toNat → t.getV i = s.readByte (s.I.toNat + i.toNat)) ∧
        SameBut (fun i => i.toNat ≤ x.toNat) noByte [] s t

/-- An access past 0xFFF raises AddressOutOfRange with the highest address it would use, and writes only the latch:
DXYN with n > 0, FX33, FX55, FX65, and the fetch, which leaves pc (R56, R216: the spec's decision D4, log 25). -/
def Obligations.OutOfRangeAccessWritesOnlyTheLatch : Prop :=
  ∀ (x y : RegIdx) (n : Nibble) (s : State),
    (0 < n.toNat → 0xFFF < s.I.toNat + n.toNat - 1 →
      exec (.drw x y n) s = .next { s with fault := some (.addressOutOfRange .read (s.I.toNat + n.toNat - 1)) }) ∧
    (0xFFF < s.I.toNat + 2 →
      exec (.ldBcd x) s = .next { s with fault := some (.addressOutOfRange .write (s.I.toNat + 2)) }) ∧
    (0xFFF < s.I.toNat + x.toNat →
      exec (.storeRegs x) s = .next { s with fault := some (.addressOutOfRange .write (s.I.toNat + x.toNat)) }) ∧
    (0xFFF < s.I.toNat + x.toNat →
      exec (.loadRegs x) s = .next { s with fault := some (.addressOutOfRange .read (s.I.toNat + x.toNat)) }) ∧
    (s.fault = none → 0xFFF < s.pc.toNat + 1 →
      cycle s = .next { s with fault := some (.addressOutOfRange .fetch (s.pc.toNat + 1)) })

/-- FX55 and then FX65 with the same x bring V0 to Vx back, whatever the registers held in between. -/
def Obligations.StoreThenLoadRestoresRegisters : Prop :=
  ∀ (x : RegIdx) (s : State) (V : Vector Byte 16), MemCanonical s → s.I.toNat + x.toNat ≤ 0xFFF →
    ∃ t u, exec (.storeRegs x) s = .next t ∧ exec (.loadRegs x) (t.setRegs V) = .next u ∧
      ∀ i : RegIdx, u.getV i = if i.toNat ≤ x.toNat then s.getV i else (t.setRegs V).getV i

/-- A store is seen by the very next fetch: two registers stored at I are the word fetched there (R61). -/
def Obligations.StoreIsSeenByTheNextFetch : Prop :=
  ∀ (s : State), MemCanonical s → s.fault = none → s.I.toNat + 1 ≤ 0xFFF →
    ∃ t, exec (.storeRegs 1) s = .next t ∧
      cycle (t.setPc s.I) =
        match decodeWord (wordOfBytes (s.getV 0) (s.getV 1)) with
        | some i => exec i (t.setPc (s.I + 2))
        | none => .next ((t.setPc (s.I + 2)).raise (.unknownInstruction (wordOfBytes (s.getV 0) (s.getV 1))))

/-! ### Random, display, keypad -/

/-- CXNN stores the free byte of this draw, masked by nn, and the next draw is a fresh one; it holds for every
`Config.randomByte` (R150). -/
def Obligations.RandomByteIsMasked : Prop :=
  ∀ (x : RegIdx) (nn : Byte) (s : State),
    decodeWord (wordXK 0xC x nn) = some (.rnd x nn) ∧
      ∃ t, exec (.rnd x nn) s = .next t ∧ t.getV x = Config.randomByte s.draws &&& nn ∧
        t.getV x &&& nn = t.getV x ∧ t.draws = s.draws + 1 ∧ SameBut (· = x) noByte [.draws] s t

/-- 00E0 clears every cell and raises draw_flag; VF is kept (R160). -/
def Obligations.ClearMakesEveryCellFalse : Prop :=
  ∀ s : State, decodeWord 0x00E0 = some .cls ∧
    ∃ t, exec .cls s = .next t ∧ (∀ cx cy, t.disp.cell cx cy = false) ∧ t.drawFlag = true ∧
      SameBut noReg noByte [.display] s t

/-- DXYN, pixel by pixel, is one exclusive-or of the wrapped sprite, VF the collision, draw_flag always raised, also
for n = 0 (R161, R162). -/
def Obligations.DrawIsExclusiveOrWithWrap : Prop :=
  ∀ (x y : RegIdx) (n : Nibble) (s : State), x ≠ 0xF → y ≠ 0xF → SpriteInMemory s n.toNat →
    decodeWord (wordXY 0xD x y n) = some (.drw x y n) ∧
      ∃ t, exec (.drw x y n) s = .next t ∧ Drawn (s.getV x) (s.getV y) n.toNat s t

/-- The same draw twice restores the display; the second VF is 1 exactly when the first draw left a cell under a
1 bit of the sprite lit (R161 corner case (d)). -/
def Obligations.DrawTwiceRestoresDisplay : Prop :=
  ∀ (x y : RegIdx) (n : Nibble) (s : State), x ≠ 0xF → y ≠ 0xF → SpriteInMemory s n.toNat →
    ∃ t u, exec (.drw x y n) s = .next t ∧ exec (.drw x y n) t = .next u ∧ u.disp = s.disp ∧
      u.drawFlag = true ∧
      (u.getV 0xF = 1 ↔ Collides s (s.getV x) (s.getV y) n.toNat t.disp) ∧
      (u.getV 0xF = 0 ↔ ¬ Collides s (s.getV x) (s.getV y) n.toNat t.disp)

/-- DFYN and DXFN follow VF_ALIAS_ORDER: the old VF is the coordinate, or 0 when operands are read after the reset of
VF (R161 corner case (g); the reading of `resultLast` is the model's, DEDUCED, log 10). -/
def Obligations.DrawWithVfCoordinateFollowsTheParameter : Prop :=
  ∀ (x y : RegIdx) (n : Nibble) (s : State), x = 0xF ∨ y = 0xF → SpriteInMemory s n.toNat →
    ∃ t, exec (.drw x y n) s = .next t ∧
      match Config.vfAliasOrder with
      | .flagLast => Drawn (s.getV x) (s.getV y) n.toNat s t
      | .resultLast => Drawn (s.getV x) (s.getV y) n.toNat s t
      | .flagFirstReread =>
        Drawn (if x = 0xF then 0 else s.getV x) (if y = 0xF then 0 else s.getV y) n.toNat s t

/-- EX9E skips exactly when the key V[x] is held and EXA1 exactly when it is not; above 0x0F both raise
KeyIndexOutOfRange and write only the latch (R170, R171, R222; the fault is the spec's decision D12, log 25). -/
def Obligations.KeySkipsTestTheSelectedKey : Prop :=
  ∀ (x : RegIdx) (s : State),
    decodeWord (wordXK 0xE x 0x9E) = some (.skp x) ∧ decodeWord (wordXK 0xE x 0xA1) = some (.sknp x) ∧
    (∀ h : (s.getV x).toNat ≤ 0x0F,
      (∃ t, exec (.skp x) s = .next t ∧ SameBut noReg noByte [.pc] s t ∧ t.pc.toNat =
        if s.keys[(s.getV x).toNat]'(by omega) = true then (s.pc.toNat + 2) % 65536 else s.pc.toNat) ∧
      (∃ t, exec (.sknp x) s = .next t ∧ SameBut noReg noByte [.pc] s t ∧ t.pc.toNat =
        if s.keys[(s.getV x).toNat]'(by omega) = false then (s.pc.toNat + 2) % 65536 else s.pc.toNat)) ∧
    ((s.getV x).toNat > 0x0F →
      exec (.skp x) s = .next { s with fault := some (.keyIndexOutOfRange (s.getV x)) } ∧
      exec (.sknp x) s = .next { s with fault := some (.keyIndexOutOfRange (s.getV x)) })

/-- FX0A with a key held stores the least held index and goes on; with none held it steps pc back by 2 and changes
nothing else (R172). -/
def Obligations.KeyWaitTakesLeastHeldKeyOrRewinds : Prop :=
  ∀ (x : RegIdx) (s : State),
    decodeWord (wordXK 0xF x 0x0A) = some (.ldVxKey x) ∧
    (∀ k : Fin 16, s.keys[k] = true → (∀ j : Fin 16, j < k → s.keys[j] = false) →
      ∃ t, exec (.ldVxKey x) s = .next t ∧ (t.getV x).toNat = k.val ∧ SameBut (· = x) noByte [] s t) ∧
    ((∀ k : Fin 16, s.keys[k] = false) →
      ∃ t, exec (.ldVxKey x) s = .next t ∧ (t.pc.toNat : Int) = (s.pc.toNat - 2 : Int) % 65536 ∧
        SameBut noReg noByte [.pc] s t)

/-- A cycle that fetches FX0A with no key held changes nothing at all: pc is back where it was (R172 corner case
(a), R173). -/
def Obligations.KeyWaitWithoutKeyChangesNothing : Prop :=
  ∀ (x : RegIdx) (s : State), s.fault = none → s.pc.toNat ≤ 0xFFE → (∀ k : Fin 16, s.keys[k] = false) →
    wordOfBytes (s.readByte s.pc.toNat) (s.readByte (s.pc.toNat + 1)) = wordXK 0xF x 0x0A →
    cycle s = .next s

/-! ### Timers -/

/-- FX07 reads the logical delay timer, floor(dt_s / P), and changes nothing else (R180; the spec's
decision D13, log 8). -/
def Obligations.DelayTimerReadIsLogicalValue : Prop :=
  ∀ (x : RegIdx) (s : State), TimersInRange s →
    decodeWord (wordXK 0xF x 0x07) = some (.ldVxDt x) ∧
      ∃ t, exec (.ldVxDt x) s = .next t ∧ (t.getV x).toNat = s.dtS / Config.timerPrecision ∧
        SameBut (· = x) noByte [] s t

/-- FX15 and FX18 store V[x] * P in their timer, and nothing else (R181, R182; the scaling is the spec's decision
D13, log 8). -/
def Obligations.TimerWritesScaleByPrecision : Prop :=
  ∀ (x : RegIdx) (s : State),
    (decodeWord (wordXK 0xF x 0x15) = some (.ldDtVx x) ∧
      ∃ t, exec (.ldDtVx x) s = .next t ∧ t.dtS = (s.getV x).toNat * Config.timerPrecision ∧
        SameBut noReg noByte [.delay] s t) ∧
    (decodeWord (wordXK 0xF x 0x18) = some (.ldStVx x) ∧
      ∃ t, exec (.ldStVx x) s = .next t ∧ t.stS = (s.getV x).toNat * Config.timerPrecision ∧
        SameBut noReg noByte [.sound] s t)

/-- advance_timers takes floor(60 * P / cfg_fps) from each timer, clamped at zero, and changes nothing else
(R192; the formula is the spec's decision D13, log 8). -/
def Obligations.TimerAdvanceIsClampedDecrement : Prop :=
  ∀ s : State, 1 ≤ s.cfgFps →
    ((advanceTimers s).dtS : Int) = max 0 ((s.dtS : Int) - (60 * Config.timerPrecision / s.cfgFps : Nat)) ∧
    ((advanceTimers s).stS : Int) = max 0 ((s.stS : Int) - (60 * Config.timerPrecision / s.cfgFps : Nat)) ∧
    SameBut noReg noByte [.delay, .sound] s (advanceTimers s)

/-- When cfg_fps divides 60 the precision is unobservable: timers that hold P times a and b hold P times
max(0, a - 60 / cfg_fps) and max(0, b - 60 / cfg_fps) after the advance, FX07 reads the logical value, and the tone
is on while it is not zero (R183; the spec's decisions D13 and D14, logs 8 and 25). -/
def Obligations.PrecisionIsUnobservableWhenRateDivides60 : Prop :=
  ∀ (x : RegIdx) (s : State) (a b : Nat), s.cfgFps ∣ 60 → a ≤ 255 → b ≤ 255 →
    s.dtS = Config.timerPrecision * a → s.stS = Config.timerPrecision * b →
    (advanceTimers s).dtS = Config.timerPrecision * (a - 60 / s.cfgFps) ∧
    (advanceTimers s).stS = Config.timerPrecision * (b - 60 / s.cfgFps) ∧
    (∃ t, exec (.ldVxDt x) s = .next t ∧ (t.getV x).toNat = a) ∧
    (s.beeping = true ↔ b ≠ 0)

/-! ### Every instruction -/

/-- Every instruction, in every state, answers a next state: none stops the machine; and a fault is precise: either
none is raised, or only the latch is written (R218). -/
def Obligations.EveryInstructionAnswersAndFaultsPrecisely : Prop :=
  ∀ (i : Instr) (s : State), ∃ t, exec i s = .next t ∧
    (s.fault = none → t.fault = none ∨ ∃ f, t = { s with fault := some f })

/-- Only eight instructions can raise, each its own faults; the other 26 always complete (R211; three of the faults
are the spec's decisions D3, D4 and D12, log 25). -/
def Obligations.OnlyListedInstructionsRaise : Prop :=
  ∀ (i : Instr) (s t : State) (f : FaultValue), s.fault = none → exec i s = .next t → t.fault = some f →
    (i = .ret ∧ f = .stackUnderflow) ∨
    (∃ nnn, i = .call nnn ∧ f = .stackOverflow) ∨
    (∃ x y n a, i = .drw x y n ∧ f = .addressOutOfRange .read a) ∨
    (∃ x a, i = .ldBcd x ∧ f = .addressOutOfRange .write a) ∨
    (∃ x a, i = .storeRegs x ∧ f = .addressOutOfRange .write a) ∨
    (∃ x a, i = .loadRegs x ∧ f = .addressOutOfRange .read a) ∨
    (∃ x, (i = .skp x ∨ i = .sknp x) ∧ f = .keyIndexOutOfRange (s.getV x))

/-- The access table, ALU family: registers V[x], and VF for the five flag writers, are all that 6XNN, 7XNN and 8XYN
change (R22, R38). -/
def Obligations.AluFamilyStaysInItsFrame : Prop :=
  ∀ (i : Instr) (s t : State), familyOf i = .alu → exec i s = .next t → InFrame i s t

/-- The access table, control transfer and skips (R38, R100, R114). -/
def Obligations.ControlAndSkipsStayInTheirFrame : Prop :=
  ∀ (i : Instr) (s t : State), familyOf i = .control ∨ familyOf i = .skips → exec i s = .next t → InFrame i s t

/-- The access table, address register and memory: only FX33 and FX55 change memory, and only the bytes from I they
store to; I is kept by every memory instruction (R38, R57, R146). -/
def Obligations.IndexAndMemoryStayInTheirFrame : Prop :=
  ∀ (i : Instr) (s t : State), familyOf i = .indexMemory → exec i s = .next t → InFrame i s t

/-- The access table, random, display, keypad and timers (R38). -/
def Obligations.DevicesFamiliesStayInTheirFrame : Prop :=
  ∀ (i : Instr) (s t : State),
    familyOf i = .random ∨ familyOf i = .display ∨ familyOf i = .keypad ∨ familyOf i = .timers →
    exec i s = .next t → InFrame i s t

/-! ### The cycle, the frame and the host -/

/-- When the bytes at pc decode to an instruction, a cycle is its meaning with pc advanced by 2; a step is that cycle
inside a frame, at the start of the frame the host calls (the next operation queued, or its free-running call when
nothing is queued), and under executeOneCycle, with the frame's count, its timer advance and the reply around it (R85,
R190, R193, R232; the merging of moves into steps and the free-running call are the model's DESIGN CHOICE, logs 16 and
17). -/
def Obligations.StepRunsTheDecodedInstruction : Prop :=
  ∀ (s : State) (i : Instr) (left : Nat) (rest : List HostOp), s.fault = none → s.pc.toNat ≤ 0xFFE →
    decode [s.readByte s.pc.toNat, s.readByte (s.pc.toNat + 1)] = .ok (i, []) →
    cycle s = exec i { s with pc := s.pc + 2 } ∧
    (∀ t, exec i { s with pc := s.pc + 2 } = .next t → 1 ≤ s.cfgFps → s.frameLeft = left + 1 →
      step s = .next (afterCycle left t)) ∧
    (∀ t, exec i { s with pc := s.pc + 2, hostOps := rest } = .next t → 1 ≤ s.cfgFps → s.frameLeft = 0 →
      s.hostOps = .executeFrame :: rest → s.loaded = true → s.cfgClock / s.cfgFps = left + 1 →
      step s = .next (afterCycle left t)) ∧
    (∀ t, exec i { s with pc := s.pc + 2 } = .next t → 1 ≤ s.cfgFps → s.frameLeft = 0 → s.hostOps = [] →
      s.loaded = true → s.cfgClock / s.cfgFps = left + 1 → step s = .next (afterCycle left t)) ∧
    (∀ t, exec i { s with pc := s.pc + 2, hostOps := rest } = .next t → s.frameLeft = 0 →
      s.hostOps = .executeOneCycle :: rest → s.loaded = true →
      step s = .next { t with reply := some (match t.fault with | some f => .fault f | none => .ok) })

/-- A cycle that fetches a word matching no row raises UnknownInstruction with the raw word; pc is past it and nothing
else has changed (R212; for classes 0, 5 and 9 by the spec's decisions D7 and D8, log 25). -/
def Obligations.IllegalWordRaisesUnknownInstruction : Prop :=
  ∀ (s : State) (w : Word), s.fault = none → s.pc.toNat ≤ 0xFFE →
    w.toNat = (s.readByte s.pc.toNat).toNat * 256 + (s.readByte (s.pc.toNat + 1)).toNat →
    wellFormedWord w = false →
    cycle s = .next { s with pc := s.pc + 2, fault := some (.unknownInstruction w) }

/-- The halted core: cycles, frames, loads and configuration change nothing and return the latched fault; key writes
and the observers still work; and no step clears or overwrites the latch but the one that performs the host's reset,
which clears it (R33, R219, R220; the latch is the spec's decision D16, logs 21 and 25). -/
def Obligations.HaltedCoreMovesNoMore : Prop :=
  ∀ (s : State) (f : FaultValue) (n : Nat) (bytes : List Byte) (held : Vector Bool 16), s.fault = some f →
    cycle s = .next s ∧
    executeFrame s = .next { s with reply := some (.fault f) } ∧
    executeOneCycle s = .next { s with reply := some (.fault f) } ∧
    loadProgram bytes s = .next { s with reply := some (.fault f) } ∧
    setFrameRate n s = { s with reply := some (.fault f) } ∧
    setClockSpeed n s = { s with reply := some (.fault f) } ∧
    writeKeys held s = { s with keys := held, reply := none } ∧
    consumeDrawFlag s = { s with drawFlag := false, reply := some (.bool s.drawFlag) } ∧
    getDisplay s = { s with reply := some (.display s.disp) } ∧
    shouldBeep s = { s with reply := some (.bool (s.stS != 0)) } ∧
    (∀ t, step s = .next t →
      if s.frameLeft = 0 ∧ s.hostOps.head? = some .reset then t.fault = none else t.fault = some f)

/-- A frame runs floor(cfg_clock / cfg_fps) cycles and then advances the timers exactly once, or stops at a fault with
no advance; keys and configuration are constant in it (R190, R191, R206; what a fault does is the spec's decision
D16, log 25). -/
def Obligations.FrameRunsItsBudgetThenAdvancesOnce : Prop :=
  ∀ s : State, s.fault = none → 1 ≤ s.cfgFps →
    ∃ t u, executeFrame s = .next t ∧ runCycles (s.cfgClock / s.cfgFps) s = .next u ∧
      u.keys = s.keys ∧ u.cfgFps = s.cfgFps ∧ u.cfgClock = s.cfgClock ∧ t.fault = u.fault ∧
      (∀ f, u.fault = some f → t.dtS = u.dtS ∧ t.stS = u.stS ∧ t.reply = some (.fault f)) ∧
      (u.fault = none → t.dtS = (advanceTimers u).dtS ∧ t.stS = (advanceTimers u).stS ∧ t.reply = some .ok) ∧
      SameBut noReg noByte [.delay, .sound] { u with frameLeft := t.frameLeft, reply := t.reply } t

/-- Step by step is frame by frame. When the host's next operation is executeFrame, on a core that is loaded or halted,
its first steps give exactly the state of executeFrame as R190 writes it: as many as the budget has cycles (one for an
empty budget), and no more than that when a fault ends the frame early. With nothing queued on a loaded core, as many
steps as the budget has cycles do the same. (Steps, and that nothing queued means another executeFrame, are the model's
DESIGN CHOICE, logs 16 and 17.) -/
def Obligations.StepsOfAFrameRefineExecuteFrame : Prop :=
  ∀ (s : State) (rest : List HostOp), s.frameLeft = 0 →
    (s.hostOps = .executeFrame :: rest → s.loaded = true ∨ s.fault ≠ none →
      ∃ n, 1 ≤ n ∧ n ≤ max (s.cfgClock / s.cfgFps) 1 ∧
        Host.Core.run Sys2Proof.core n s = executeFrame { s with hostOps := rest } ∧
        ∀ t, executeFrame { s with hostOps := rest } = .next t → t.fault = none → n = max (s.cfgClock / s.cfgFps) 1) ∧
    (s.hostOps = [] → s.loaded = true →
      Host.Core.run Sys2Proof.core (max (s.cfgClock / s.cfgFps) 1) s = executeFrame s)

/-- With a legal configuration and nothing queued every step answers a next state: the machine has no halt (R244;
that the host goes on calling is the model's DESIGN CHOICE, log 16). -/
def Obligations.FreeRunningMachineNeverStops : Prop :=
  ∀ s : State, ConfigPositive s → s.hostOps = [] → ∃ t, step s = .next t

/-- setFrameRate and setClockSpeed write a positive value, and raise ConfigurationError on 0 with the register as it
was; a queued one is the step between operations (R196, R197, R203; the latch is the spec's decision D29, log 25; the
queue and the reply are the model's, logs 16 and 18). -/
def Obligations.ConfigurationRefusesZero : Prop :=
  ∀ (s : State) (n : Nat) (rest : List HostOp), s.fault = none →
    setFrameRate n s = (if n = 0 then
        { s with fault := some (.configurationError .frameRate 0),
                 reply := some (.fault (.configurationError .frameRate 0)) }
      else { s with cfgFps := n, reply := some .ok }) ∧
    setClockSpeed n s = (if n = 0 then
        { s with fault := some (.configurationError .clockSpeed 0),
                 reply := some (.fault (.configurationError .clockSpeed 0)) }
      else { s with cfgClock := n, reply := some .ok }) ∧
    (s.frameLeft = 0 → s.hostOps = .setFrameRate n :: rest →
      step s = .next (setFrameRate n { s with hostOps := rest })) ∧
    (s.frameLeft = 0 → s.hostOps = .setClockSpeed n :: rest →
      step s = .next (setClockSpeed n { s with hostOps := rest }))

/-- The host's one load copies an image of at most 3584 bytes to 0x200 and changes no other byte, the font among them
(the spec's decision D33, log 25); a longer one raises CapacityExceeded with memory untouched. Either changes nothing
else but the latch and the model's own `loaded` and `reply` (R194, R195; the latch is the spec's decision D29, log 25;
the step that performs it and the two fields, logs 16 and 18). -/
def Obligations.LoadCopiesImageOrTouchesNothing : Prop :=
  ∀ (s : State) (bytes : List Byte) (rest : List HostOp), MemCanonical s → s.fault = none → s.loaded = false →
    (s.frameLeft = 0 → s.hostOps = .loadProgram bytes :: rest →
      step s = loadProgram bytes { s with hostOps := rest }) ∧
    ∃ t, loadProgram bytes s = .next t ∧
      t = { s with mem := t.mem, fault := t.fault, loaded := t.loaded, reply := t.reply } ∧
      (bytes.length ≤ 3584 →
        (∀ k (h : k < bytes.length), t.readByte (0x200 + k) = bytes[k]) ∧
        BytesKeptBut (bytesFrom 0x200 bytes.length) s t ∧ t.fault = none ∧ t.loaded = true ∧ t.reply = some .ok) ∧
      (3584 < bytes.length →
        t.mem = s.mem ∧ t.fault = some (.capacityExceeded bytes.length) ∧ t.loaded = false ∧
          t.reply = some (.fault (.capacityExceeded bytes.length)))

/-- The host's contract: a second load, and a run before the load, are given no move; the refusal is the model's form of
it (R203, R204, log 19). -/
def Obligations.OutOfContractMovesAreRefused : Prop :=
  ∀ (s : State) (bytes : List Byte) (rest : List HostOp), s.fault = none → s.frameLeft = 0 →
    (s.loaded = true → s.hostOps = .loadProgram bytes :: rest → step s = .refused .secondLoad) ∧
    (s.loaded = false → s.hostOps = .executeFrame :: rest → step s = .refused .runBeforeLoad) ∧
    (s.loaded = false → s.hostOps = .executeOneCycle :: rest → step s = .refused .runBeforeLoad)

/-- Between operations, on a running core and on a halted one, the host's next key write sets all sixteen keys, and its
next observer operation answers: consumeDrawFlag returns draw_flag and clears it, getDisplay returns the display,
shouldBeep whether st_s ≠ 0, and reading the fault returns the latch; nothing else changes (R198, R199, R200, R201, R220;
the scaled value by the spec's decision D14, the latch by D16, log 25; before the load log 20, when halted log 21, the
reply is the model's field, log 18). -/
def Obligations.ObserversAnswerTheHost : Prop :=
  ∀ (s : State) (held : Vector Bool 16) (rest : List HostOp), s.frameLeft = 0 →
    (s.hostOps = .writeKeys held :: rest →
      step s = .next { s with hostOps := rest, keys := held, reply := none }) ∧
    (s.hostOps = .consumeDrawFlag :: rest →
      step s = .next { s with hostOps := rest, drawFlag := false, reply := some (.bool s.drawFlag) }) ∧
    (s.hostOps = .getDisplay :: rest →
      step s = .next { s with hostOps := rest, reply := some (.display s.disp) }) ∧
    (s.hostOps = .shouldBeep :: rest →
      step s = .next { s with hostOps := rest, reply := some (.bool (s.stS != 0)) }) ∧
    (s.hostOps = .readFault :: rest →
      step s = .next { s with hostOps := rest, reply := some (.latch s.fault) })

/-! ### Invariants and reset -/

/-- Every step keeps the memory in its canonical form (the model's own, log 7). -/
def Obligations.StepKeepsMemoryCanonical : Prop :=
  ∀ s t : State, MemCanonical s → step s = .next t → MemCanonical t

/-- Every step keeps the timers in 0 to 255 * P and the configuration positive, never latches IOFailure, and keeps a
frame in progress consistent (R28, R39, R190, R214; derived in the spec; the frame counter is the model's, log 17). -/
def Obligations.StepKeepsRangesOfTheSpec : Prop :=
  ∀ s t : State, TimersInRange s ∧ ConfigPositive s ∧ LatchPossible s ∧ FrameConsistent s → step s = .next t →
    TimersInRange t ∧ ConfigPositive t ∧ LatchPossible t ∧ FrameConsistent t

/-- Every step keeps pc at most 0x10FE and every live stack slot at most 0x1000: pc never wraps at 65536 (R24,
derived there). -/
def Obligations.StepKeepsPcBounded : Prop :=
  ∀ s t : State, PcBounded s → step s = .next t → PcBounded t

/-- The state after reset meets every invariant. It rests on reset values that are the model's DESIGN CHOICE: the timers
at 0 within R37's range (log 4), memory with nothing listed (log 7), no frame in progress (log 17); and on the spec's
own values for pc, sp, fault and the configuration (decisions D15, D16 and D18, log 25). -/
def Obligations.ResetMeetsTheInvariants : Prop :=
  MemCanonical State.reset ∧ TimersInRange State.reset ∧ ConfigPositive State.reset ∧ LatchPossible State.reset ∧
    FrameConsistent State.reset ∧ PcBounded State.reset

/-- The reset values the spec fixes: pc, the clear display, the font table, the empty stack, no fault, 60 and 700. The
machine has them right after reset, and the host's reset operation gives them from any state between operations, halted
or not, after which the program must be loaded again (R36, R220, R230; sp, fault, the two configuration registers and
the time of the font are the spec's decisions D15, D16, D18 and D33, log 25; `loaded` is the model's field, log 16). -/
def Obligations.ResetHasTheValuesTheSpecFixes : Prop :=
  HasResetValues State.reset ∧
    ∀ (s : State) (rest : List HostOp), s.frameLeft = 0 → s.hostOps = .reset :: rest →
      ∃ t, step s = .next t ∧ HasResetValues t ∧ t.loaded = false ∧ t.frameLeft = 0 ∧ t.hostOps = rest
end

