-- ==== Sys2Proof/Laws/Decode.lean ====
section
/-!
SUPPORT. Each field of a word built in each format (30_encoding.md rules R71, R72), and the two bytes of a word.
-/
namespace Sys2Proof

theorem wordA_toNat (op : Nibble) (nnn : Addr12) : (wordA op nnn).toNat = op.toNat * 4096 + nnn.toNat := by
  simp only [wordA, BitVec.toNat_append]
  rw [← Nat.shiftLeft_add_eq_or_of_lt nnn.isLt, Nat.shiftLeft_eq]

theorem wordXK_toNat (op : Nibble) (x : RegIdx) (nn : Byte) :
    (wordXK op x nn).toNat = op.toNat * 4096 + x.toNat * 256 + nn.toNat := by
  simp only [wordXK, BitVec.toNat_append]
  rw [← Nat.shiftLeft_add_eq_or_of_lt x.isLt, ← Nat.shiftLeft_add_eq_or_of_lt nn.isLt]
  simp only [Nat.shiftLeft_eq]
  omega

theorem wordXY_toNat (op : Nibble) (x y : RegIdx) (n : Nibble) :
    (wordXY op x y n).toNat = op.toNat * 4096 + x.toNat * 256 + y.toNat * 16 + n.toNat := by
  simp only [wordXY, BitVec.toNat_append]
  rw [← Nat.shiftLeft_add_eq_or_of_lt x.isLt, ← Nat.shiftLeft_add_eq_or_of_lt y.isLt,
    ← Nat.shiftLeft_add_eq_or_of_lt n.isLt]
  simp only [Nat.shiftLeft_eq]
  omega

theorem opField_toNat (w : Word) : (opField w).toNat = w.toNat / 4096 := by
  simp only [opField, BitVec.extractLsb'_toNat, Nat.shiftRight_eq_div_pow]
  omega

theorem xField_toNat (w : Word) : (xField w).toNat = w.toNat / 256 % 16 := by
  simp only [xField, BitVec.extractLsb'_toNat, Nat.shiftRight_eq_div_pow]

theorem yField_toNat (w : Word) : (yField w).toNat = w.toNat / 16 % 16 := by
  simp only [yField, BitVec.extractLsb'_toNat, Nat.shiftRight_eq_div_pow]

theorem nField_toNat (w : Word) : (nField w).toNat = w.toNat % 16 := by
  simp only [nField, BitVec.extractLsb'_toNat, Nat.shiftRight_eq_div_pow]
  omega

theorem nnField_toNat (w : Word) : (nnField w).toNat = w.toNat % 256 := by
  simp only [nnField, BitVec.extractLsb'_toNat, Nat.shiftRight_eq_div_pow]
  omega

theorem nnnField_toNat (w : Word) : (nnnField w).toNat = w.toNat % 4096 := by
  simp only [nnnField, BitVec.extractLsb'_toNat, Nat.shiftRight_eq_div_pow]
  omega

theorem highByte_toNat (w : Word) : (highByte w).toNat = w.toNat / 256 := by
  simp only [highByte, BitVec.extractLsb'_toNat, Nat.shiftRight_eq_div_pow]
  omega

theorem lowByte_toNat (w : Word) : (lowByte w).toNat = w.toNat % 256 := by
  simp only [lowByte, BitVec.extractLsb'_toNat, Nat.shiftRight_eq_div_pow]
  omega

/-- Big-endian: the word of two bytes is `hi * 256 + lo` (R53). -/
theorem wordOfBytes_toNat (hi lo : Byte) : (wordOfBytes hi lo).toNat = hi.toNat * 256 + lo.toNat := by
  simp only [wordOfBytes, BitVec.toNat_append]
  rw [← Nat.shiftLeft_add_eq_or_of_lt lo.isLt, Nat.shiftLeft_eq]

/-- A word is the word of its two bytes. -/
@[simp] theorem wordOfBytes_bytes (w : Word) : wordOfBytes (highByte w) (lowByte w) = w := by
  apply BitVec.eq_of_toNat_eq
  rw [wordOfBytes_toNat, highByte_toNat, lowByte_toNat]
  omega

@[simp] theorem opField_wordA (op : Nibble) (nnn : Addr12) : opField (wordA op nnn) = op := by
  apply BitVec.eq_of_toNat_eq; rw [opField_toNat, wordA_toNat]; omega

@[simp] theorem nnnField_wordA (op : Nibble) (nnn : Addr12) : nnnField (wordA op nnn) = nnn := by
  apply BitVec.eq_of_toNat_eq; rw [nnnField_toNat, wordA_toNat]; omega

@[simp] theorem opField_wordXK (op : Nibble) (x : RegIdx) (nn : Byte) : opField (wordXK op x nn) = op := by
  apply BitVec.eq_of_toNat_eq; rw [opField_toNat, wordXK_toNat]; omega

@[simp] theorem xField_wordXK (op : Nibble) (x : RegIdx) (nn : Byte) : xField (wordXK op x nn) = x := by
  apply BitVec.eq_of_toNat_eq; rw [xField_toNat, wordXK_toNat]; omega

@[simp] theorem nnField_wordXK (op : Nibble) (x : RegIdx) (nn : Byte) : nnField (wordXK op x nn) = nn := by
  apply BitVec.eq_of_toNat_eq; rw [nnField_toNat, wordXK_toNat]; omega

@[simp] theorem opField_wordXY (op : Nibble) (x y : RegIdx) (n : Nibble) : opField (wordXY op x y n) = op := by
  apply BitVec.eq_of_toNat_eq; rw [opField_toNat, wordXY_toNat]; omega

@[simp] theorem xField_wordXY (op : Nibble) (x y : RegIdx) (n : Nibble) : xField (wordXY op x y n) = x := by
  apply BitVec.eq_of_toNat_eq; rw [xField_toNat, wordXY_toNat]; omega

@[simp] theorem yField_wordXY (op : Nibble) (x y : RegIdx) (n : Nibble) : yField (wordXY op x y n) = y := by
  apply BitVec.eq_of_toNat_eq; rw [yField_toNat, wordXY_toNat]; omega

@[simp] theorem nField_wordXY (op : Nibble) (x y : RegIdx) (n : Nibble) : nField (wordXY op x y n) = n := by
  apply BitVec.eq_of_toNat_eq; rw [nField_toNat, wordXY_toNat]; omega

/-! What the masks of the opcode rows keep of a word, format by format (R75). -/

theorem nibble_and_ones (v : Nibble) : v &&& 0xF#4 = v := BitVec.and_allOnes

theorem byte_and_ones (v : Byte) : v &&& 0xFF#8 = v := BitVec.and_allOnes

@[simp] theorem wordA_and (op : Nibble) (nnn : Addr12) : wordA op nnn &&& 0xF000#16 = wordA op 0 := by
  show (op ++ nnn : BitVec (4 + 12)) &&& (0xF#4 ++ 0#12) = op ++ 0#12
  rw [BitVec.and_append, nibble_and_ones op, BitVec.and_zero]

@[simp] theorem wordXK_and_class (op : Nibble) (x : RegIdx) (nn : Byte) : wordXK op x nn &&& 0xF000#16 = wordXK op 0 0 := by
  show (op ++ x ++ nn : BitVec (4 + 4 + 8)) &&& (0xF#4 ++ 0#4 ++ 0#8) = op ++ 0#4 ++ 0#8
  rw [BitVec.and_append, BitVec.and_append, nibble_and_ones op, BitVec.and_zero, BitVec.and_zero]

@[simp] theorem wordXK_and_byte (op : Nibble) (x : RegIdx) (nn : Byte) : wordXK op x nn &&& 0xF0FF#16 = wordXK op 0 nn := by
  show (op ++ x ++ nn : BitVec (4 + 4 + 8)) &&& (0xF#4 ++ 0#4 ++ 0xFF#8) = op ++ 0#4 ++ nn
  rw [BitVec.and_append, BitVec.and_append, nibble_and_ones op, BitVec.and_zero,
    byte_and_ones nn]

@[simp] theorem wordXY_and_class (op : Nibble) (x y : RegIdx) (n : Nibble) :
    wordXY op x y n &&& 0xF000#16 = wordXY op 0 0 0 := by
  show (op ++ x ++ y ++ n : BitVec (4 + 4 + 4 + 4)) &&& (0xF#4 ++ 0#4 ++ 0#4 ++ 0#4) = op ++ 0#4 ++ 0#4 ++ 0#4
  rw [BitVec.and_append, BitVec.and_append, BitVec.and_append, nibble_and_ones op]
  simp

@[simp] theorem wordXY_and_nibble (op : Nibble) (x y : RegIdx) (n : Nibble) :
    wordXY op x y n &&& 0xF00F#16 = wordXY op 0 0 n := by
  show (op ++ x ++ y ++ n : BitVec (4 + 4 + 4 + 4)) &&& (0xF#4 ++ 0#4 ++ 0#4 ++ 0xF#4) = op ++ 0#4 ++ 0#4 ++ n
  rw [BitVec.and_append, BitVec.and_append, BitVec.and_append, nibble_and_ones op,
    nibble_and_ones n]
  simp

end Sys2Proof
end

