-- ==== Sys2Proof/Laws/State.lean ====
section
/-!
SUPPORT. What each named update of the state does to each field, true by definition, and how register reads and
memory reads see it; so that no proof unfolds a record update.
-/
namespace Sys2Proof.Machine

/-! ### setV -/

@[simp] theorem State.setV_V (s : State) (i : RegIdx) (v : Byte) : (s.setV i v).V = s.V.set i.toNat v := rfl
@[simp] theorem State.setV_I (s : State) (i : RegIdx) (v : Byte) : (s.setV i v).I = s.I := rfl
@[simp] theorem State.setV_pc (s : State) (i : RegIdx) (v : Byte) : (s.setV i v).pc = s.pc := rfl
@[simp] theorem State.setV_stack (s : State) (i : RegIdx) (v : Byte) : (s.setV i v).stack = s.stack := rfl
@[simp] theorem State.setV_sp (s : State) (i : RegIdx) (v : Byte) : (s.setV i v).sp = s.sp := rfl
@[simp] theorem State.setV_dtS (s : State) (i : RegIdx) (v : Byte) : (s.setV i v).dtS = s.dtS := rfl
@[simp] theorem State.setV_stS (s : State) (i : RegIdx) (v : Byte) : (s.setV i v).stS = s.stS := rfl
@[simp] theorem State.setV_disp (s : State) (i : RegIdx) (v : Byte) : (s.setV i v).disp = s.disp := rfl
@[simp] theorem State.setV_drawFlag (s : State) (i : RegIdx) (v : Byte) : (s.setV i v).drawFlag = s.drawFlag := rfl
@[simp] theorem State.setV_keys (s : State) (i : RegIdx) (v : Byte) : (s.setV i v).keys = s.keys := rfl
@[simp] theorem State.setV_cfgFps (s : State) (i : RegIdx) (v : Byte) : (s.setV i v).cfgFps = s.cfgFps := rfl
@[simp] theorem State.setV_cfgClock (s : State) (i : RegIdx) (v : Byte) : (s.setV i v).cfgClock = s.cfgClock := rfl
@[simp] theorem State.setV_fault (s : State) (i : RegIdx) (v : Byte) : (s.setV i v).fault = s.fault := rfl
@[simp] theorem State.setV_mem (s : State) (i : RegIdx) (v : Byte) : (s.setV i v).mem = s.mem := rfl
@[simp] theorem State.setV_frameLeft (s : State) (i : RegIdx) (v : Byte) : (s.setV i v).frameLeft = s.frameLeft := rfl
@[simp] theorem State.setV_loaded (s : State) (i : RegIdx) (v : Byte) : (s.setV i v).loaded = s.loaded := rfl
@[simp] theorem State.setV_hostOps (s : State) (i : RegIdx) (v : Byte) : (s.setV i v).hostOps = s.hostOps := rfl
@[simp] theorem State.setV_reply (s : State) (i : RegIdx) (v : Byte) : (s.setV i v).reply = s.reply := rfl
@[simp] theorem State.setV_draws (s : State) (i : RegIdx) (v : Byte) : (s.setV i v).draws = s.draws := rfl

/-! ### setRegs -/

@[simp] theorem State.setRegs_V (s : State) (V : Vector Byte 16) : (s.setRegs V).V = V := rfl
@[simp] theorem State.setRegs_I (s : State) (V : Vector Byte 16) : (s.setRegs V).I = s.I := rfl
@[simp] theorem State.setRegs_pc (s : State) (V : Vector Byte 16) : (s.setRegs V).pc = s.pc := rfl
@[simp] theorem State.setRegs_stack (s : State) (V : Vector Byte 16) : (s.setRegs V).stack = s.stack := rfl
@[simp] theorem State.setRegs_sp (s : State) (V : Vector Byte 16) : (s.setRegs V).sp = s.sp := rfl
@[simp] theorem State.setRegs_dtS (s : State) (V : Vector Byte 16) : (s.setRegs V).dtS = s.dtS := rfl
@[simp] theorem State.setRegs_stS (s : State) (V : Vector Byte 16) : (s.setRegs V).stS = s.stS := rfl
@[simp] theorem State.setRegs_disp (s : State) (V : Vector Byte 16) : (s.setRegs V).disp = s.disp := rfl
@[simp] theorem State.setRegs_drawFlag (s : State) (V : Vector Byte 16) : (s.setRegs V).drawFlag = s.drawFlag := rfl
@[simp] theorem State.setRegs_keys (s : State) (V : Vector Byte 16) : (s.setRegs V).keys = s.keys := rfl
@[simp] theorem State.setRegs_cfgFps (s : State) (V : Vector Byte 16) : (s.setRegs V).cfgFps = s.cfgFps := rfl
@[simp] theorem State.setRegs_cfgClock (s : State) (V : Vector Byte 16) : (s.setRegs V).cfgClock = s.cfgClock := rfl
@[simp] theorem State.setRegs_fault (s : State) (V : Vector Byte 16) : (s.setRegs V).fault = s.fault := rfl
@[simp] theorem State.setRegs_mem (s : State) (V : Vector Byte 16) : (s.setRegs V).mem = s.mem := rfl
@[simp] theorem State.setRegs_frameLeft (s : State) (V : Vector Byte 16) : (s.setRegs V).frameLeft = s.frameLeft := rfl
@[simp] theorem State.setRegs_loaded (s : State) (V : Vector Byte 16) : (s.setRegs V).loaded = s.loaded := rfl
@[simp] theorem State.setRegs_hostOps (s : State) (V : Vector Byte 16) : (s.setRegs V).hostOps = s.hostOps := rfl
@[simp] theorem State.setRegs_reply (s : State) (V : Vector Byte 16) : (s.setRegs V).reply = s.reply := rfl
@[simp] theorem State.setRegs_draws (s : State) (V : Vector Byte 16) : (s.setRegs V).draws = s.draws := rfl

/-! ### setI -/

@[simp] theorem State.setI_V (s : State) (v : Word) : (s.setI v).V = s.V := rfl
@[simp] theorem State.setI_I (s : State) (v : Word) : (s.setI v).I = v := rfl
@[simp] theorem State.setI_pc (s : State) (v : Word) : (s.setI v).pc = s.pc := rfl
@[simp] theorem State.setI_stack (s : State) (v : Word) : (s.setI v).stack = s.stack := rfl
@[simp] theorem State.setI_sp (s : State) (v : Word) : (s.setI v).sp = s.sp := rfl
@[simp] theorem State.setI_dtS (s : State) (v : Word) : (s.setI v).dtS = s.dtS := rfl
@[simp] theorem State.setI_stS (s : State) (v : Word) : (s.setI v).stS = s.stS := rfl
@[simp] theorem State.setI_disp (s : State) (v : Word) : (s.setI v).disp = s.disp := rfl
@[simp] theorem State.setI_drawFlag (s : State) (v : Word) : (s.setI v).drawFlag = s.drawFlag := rfl
@[simp] theorem State.setI_keys (s : State) (v : Word) : (s.setI v).keys = s.keys := rfl
@[simp] theorem State.setI_cfgFps (s : State) (v : Word) : (s.setI v).cfgFps = s.cfgFps := rfl
@[simp] theorem State.setI_cfgClock (s : State) (v : Word) : (s.setI v).cfgClock = s.cfgClock := rfl
@[simp] theorem State.setI_fault (s : State) (v : Word) : (s.setI v).fault = s.fault := rfl
@[simp] theorem State.setI_mem (s : State) (v : Word) : (s.setI v).mem = s.mem := rfl
@[simp] theorem State.setI_frameLeft (s : State) (v : Word) : (s.setI v).frameLeft = s.frameLeft := rfl
@[simp] theorem State.setI_loaded (s : State) (v : Word) : (s.setI v).loaded = s.loaded := rfl
@[simp] theorem State.setI_hostOps (s : State) (v : Word) : (s.setI v).hostOps = s.hostOps := rfl
@[simp] theorem State.setI_reply (s : State) (v : Word) : (s.setI v).reply = s.reply := rfl
@[simp] theorem State.setI_draws (s : State) (v : Word) : (s.setI v).draws = s.draws := rfl

/-! ### setPc -/

@[simp] theorem State.setPc_V (s : State) (v : Word) : (s.setPc v).V = s.V := rfl
@[simp] theorem State.setPc_I (s : State) (v : Word) : (s.setPc v).I = s.I := rfl
@[simp] theorem State.setPc_pc (s : State) (v : Word) : (s.setPc v).pc = v := rfl
@[simp] theorem State.setPc_stack (s : State) (v : Word) : (s.setPc v).stack = s.stack := rfl
@[simp] theorem State.setPc_sp (s : State) (v : Word) : (s.setPc v).sp = s.sp := rfl
@[simp] theorem State.setPc_dtS (s : State) (v : Word) : (s.setPc v).dtS = s.dtS := rfl
@[simp] theorem State.setPc_stS (s : State) (v : Word) : (s.setPc v).stS = s.stS := rfl
@[simp] theorem State.setPc_disp (s : State) (v : Word) : (s.setPc v).disp = s.disp := rfl
@[simp] theorem State.setPc_drawFlag (s : State) (v : Word) : (s.setPc v).drawFlag = s.drawFlag := rfl
@[simp] theorem State.setPc_keys (s : State) (v : Word) : (s.setPc v).keys = s.keys := rfl
@[simp] theorem State.setPc_cfgFps (s : State) (v : Word) : (s.setPc v).cfgFps = s.cfgFps := rfl
@[simp] theorem State.setPc_cfgClock (s : State) (v : Word) : (s.setPc v).cfgClock = s.cfgClock := rfl
@[simp] theorem State.setPc_fault (s : State) (v : Word) : (s.setPc v).fault = s.fault := rfl
@[simp] theorem State.setPc_mem (s : State) (v : Word) : (s.setPc v).mem = s.mem := rfl
@[simp] theorem State.setPc_frameLeft (s : State) (v : Word) : (s.setPc v).frameLeft = s.frameLeft := rfl
@[simp] theorem State.setPc_loaded (s : State) (v : Word) : (s.setPc v).loaded = s.loaded := rfl
@[simp] theorem State.setPc_hostOps (s : State) (v : Word) : (s.setPc v).hostOps = s.hostOps := rfl
@[simp] theorem State.setPc_reply (s : State) (v : Word) : (s.setPc v).reply = s.reply := rfl
@[simp] theorem State.setPc_draws (s : State) (v : Word) : (s.setPc v).draws = s.draws := rfl

/-! ### setDt -/

@[simp] theorem State.setDt_V (s : State) (v : Nat) : (s.setDt v).V = s.V := rfl
@[simp] theorem State.setDt_I (s : State) (v : Nat) : (s.setDt v).I = s.I := rfl
@[simp] theorem State.setDt_pc (s : State) (v : Nat) : (s.setDt v).pc = s.pc := rfl
@[simp] theorem State.setDt_stack (s : State) (v : Nat) : (s.setDt v).stack = s.stack := rfl
@[simp] theorem State.setDt_sp (s : State) (v : Nat) : (s.setDt v).sp = s.sp := rfl
@[simp] theorem State.setDt_dtS (s : State) (v : Nat) : (s.setDt v).dtS = v := rfl
@[simp] theorem State.setDt_stS (s : State) (v : Nat) : (s.setDt v).stS = s.stS := rfl
@[simp] theorem State.setDt_disp (s : State) (v : Nat) : (s.setDt v).disp = s.disp := rfl
@[simp] theorem State.setDt_drawFlag (s : State) (v : Nat) : (s.setDt v).drawFlag = s.drawFlag := rfl
@[simp] theorem State.setDt_keys (s : State) (v : Nat) : (s.setDt v).keys = s.keys := rfl
@[simp] theorem State.setDt_cfgFps (s : State) (v : Nat) : (s.setDt v).cfgFps = s.cfgFps := rfl
@[simp] theorem State.setDt_cfgClock (s : State) (v : Nat) : (s.setDt v).cfgClock = s.cfgClock := rfl
@[simp] theorem State.setDt_fault (s : State) (v : Nat) : (s.setDt v).fault = s.fault := rfl
@[simp] theorem State.setDt_mem (s : State) (v : Nat) : (s.setDt v).mem = s.mem := rfl
@[simp] theorem State.setDt_frameLeft (s : State) (v : Nat) : (s.setDt v).frameLeft = s.frameLeft := rfl
@[simp] theorem State.setDt_loaded (s : State) (v : Nat) : (s.setDt v).loaded = s.loaded := rfl
@[simp] theorem State.setDt_hostOps (s : State) (v : Nat) : (s.setDt v).hostOps = s.hostOps := rfl
@[simp] theorem State.setDt_reply (s : State) (v : Nat) : (s.setDt v).reply = s.reply := rfl
@[simp] theorem State.setDt_draws (s : State) (v : Nat) : (s.setDt v).draws = s.draws := rfl

/-! ### setSt -/

@[simp] theorem State.setSt_V (s : State) (v : Nat) : (s.setSt v).V = s.V := rfl
@[simp] theorem State.setSt_I (s : State) (v : Nat) : (s.setSt v).I = s.I := rfl
@[simp] theorem State.setSt_pc (s : State) (v : Nat) : (s.setSt v).pc = s.pc := rfl
@[simp] theorem State.setSt_stack (s : State) (v : Nat) : (s.setSt v).stack = s.stack := rfl
@[simp] theorem State.setSt_sp (s : State) (v : Nat) : (s.setSt v).sp = s.sp := rfl
@[simp] theorem State.setSt_dtS (s : State) (v : Nat) : (s.setSt v).dtS = s.dtS := rfl
@[simp] theorem State.setSt_stS (s : State) (v : Nat) : (s.setSt v).stS = v := rfl
@[simp] theorem State.setSt_disp (s : State) (v : Nat) : (s.setSt v).disp = s.disp := rfl
@[simp] theorem State.setSt_drawFlag (s : State) (v : Nat) : (s.setSt v).drawFlag = s.drawFlag := rfl
@[simp] theorem State.setSt_keys (s : State) (v : Nat) : (s.setSt v).keys = s.keys := rfl
@[simp] theorem State.setSt_cfgFps (s : State) (v : Nat) : (s.setSt v).cfgFps = s.cfgFps := rfl
@[simp] theorem State.setSt_cfgClock (s : State) (v : Nat) : (s.setSt v).cfgClock = s.cfgClock := rfl
@[simp] theorem State.setSt_fault (s : State) (v : Nat) : (s.setSt v).fault = s.fault := rfl
@[simp] theorem State.setSt_mem (s : State) (v : Nat) : (s.setSt v).mem = s.mem := rfl
@[simp] theorem State.setSt_frameLeft (s : State) (v : Nat) : (s.setSt v).frameLeft = s.frameLeft := rfl
@[simp] theorem State.setSt_loaded (s : State) (v : Nat) : (s.setSt v).loaded = s.loaded := rfl
@[simp] theorem State.setSt_hostOps (s : State) (v : Nat) : (s.setSt v).hostOps = s.hostOps := rfl
@[simp] theorem State.setSt_reply (s : State) (v : Nat) : (s.setSt v).reply = s.reply := rfl
@[simp] theorem State.setSt_draws (s : State) (v : Nat) : (s.setSt v).draws = s.draws := rfl

/-! ### setMem -/

@[simp] theorem State.setMem_V (s : State) (m : List Host.Cell) : (s.setMem m).V = s.V := rfl
@[simp] theorem State.setMem_I (s : State) (m : List Host.Cell) : (s.setMem m).I = s.I := rfl
@[simp] theorem State.setMem_pc (s : State) (m : List Host.Cell) : (s.setMem m).pc = s.pc := rfl
@[simp] theorem State.setMem_stack (s : State) (m : List Host.Cell) : (s.setMem m).stack = s.stack := rfl
@[simp] theorem State.setMem_sp (s : State) (m : List Host.Cell) : (s.setMem m).sp = s.sp := rfl
@[simp] theorem State.setMem_dtS (s : State) (m : List Host.Cell) : (s.setMem m).dtS = s.dtS := rfl
@[simp] theorem State.setMem_stS (s : State) (m : List Host.Cell) : (s.setMem m).stS = s.stS := rfl
@[simp] theorem State.setMem_disp (s : State) (m : List Host.Cell) : (s.setMem m).disp = s.disp := rfl
@[simp] theorem State.setMem_drawFlag (s : State) (m : List Host.Cell) : (s.setMem m).drawFlag = s.drawFlag := rfl
@[simp] theorem State.setMem_keys (s : State) (m : List Host.Cell) : (s.setMem m).keys = s.keys := rfl
@[simp] theorem State.setMem_cfgFps (s : State) (m : List Host.Cell) : (s.setMem m).cfgFps = s.cfgFps := rfl
@[simp] theorem State.setMem_cfgClock (s : State) (m : List Host.Cell) : (s.setMem m).cfgClock = s.cfgClock := rfl
@[simp] theorem State.setMem_fault (s : State) (m : List Host.Cell) : (s.setMem m).fault = s.fault := rfl
@[simp] theorem State.setMem_mem (s : State) (m : List Host.Cell) : (s.setMem m).mem = m := rfl
@[simp] theorem State.setMem_frameLeft (s : State) (m : List Host.Cell) : (s.setMem m).frameLeft = s.frameLeft := rfl
@[simp] theorem State.setMem_loaded (s : State) (m : List Host.Cell) : (s.setMem m).loaded = s.loaded := rfl
@[simp] theorem State.setMem_hostOps (s : State) (m : List Host.Cell) : (s.setMem m).hostOps = s.hostOps := rfl
@[simp] theorem State.setMem_reply (s : State) (m : List Host.Cell) : (s.setMem m).reply = s.reply := rfl
@[simp] theorem State.setMem_draws (s : State) (m : List Host.Cell) : (s.setMem m).draws = s.draws := rfl

/-! ### showDisp -/

@[simp] theorem State.showDisp_V (s : State) (d : Disp) : (s.showDisp d).V = s.V := rfl
@[simp] theorem State.showDisp_I (s : State) (d : Disp) : (s.showDisp d).I = s.I := rfl
@[simp] theorem State.showDisp_pc (s : State) (d : Disp) : (s.showDisp d).pc = s.pc := rfl
@[simp] theorem State.showDisp_stack (s : State) (d : Disp) : (s.showDisp d).stack = s.stack := rfl
@[simp] theorem State.showDisp_sp (s : State) (d : Disp) : (s.showDisp d).sp = s.sp := rfl
@[simp] theorem State.showDisp_dtS (s : State) (d : Disp) : (s.showDisp d).dtS = s.dtS := rfl
@[simp] theorem State.showDisp_stS (s : State) (d : Disp) : (s.showDisp d).stS = s.stS := rfl
@[simp] theorem State.showDisp_disp (s : State) (d : Disp) : (s.showDisp d).disp = d := rfl
@[simp] theorem State.showDisp_drawFlag (s : State) (d : Disp) : (s.showDisp d).drawFlag = true := rfl
@[simp] theorem State.showDisp_keys (s : State) (d : Disp) : (s.showDisp d).keys = s.keys := rfl
@[simp] theorem State.showDisp_cfgFps (s : State) (d : Disp) : (s.showDisp d).cfgFps = s.cfgFps := rfl
@[simp] theorem State.showDisp_cfgClock (s : State) (d : Disp) : (s.showDisp d).cfgClock = s.cfgClock := rfl
@[simp] theorem State.showDisp_fault (s : State) (d : Disp) : (s.showDisp d).fault = s.fault := rfl
@[simp] theorem State.showDisp_mem (s : State) (d : Disp) : (s.showDisp d).mem = s.mem := rfl
@[simp] theorem State.showDisp_frameLeft (s : State) (d : Disp) : (s.showDisp d).frameLeft = s.frameLeft := rfl
@[simp] theorem State.showDisp_loaded (s : State) (d : Disp) : (s.showDisp d).loaded = s.loaded := rfl
@[simp] theorem State.showDisp_hostOps (s : State) (d : Disp) : (s.showDisp d).hostOps = s.hostOps := rfl
@[simp] theorem State.showDisp_reply (s : State) (d : Disp) : (s.showDisp d).reply = s.reply := rfl
@[simp] theorem State.showDisp_draws (s : State) (d : Disp) : (s.showDisp d).draws = s.draws := rfl

/-! ### nextDraw -/

@[simp] theorem State.nextDraw_V (s : State) : (s.nextDraw).V = s.V := rfl
@[simp] theorem State.nextDraw_I (s : State) : (s.nextDraw).I = s.I := rfl
@[simp] theorem State.nextDraw_pc (s : State) : (s.nextDraw).pc = s.pc := rfl
@[simp] theorem State.nextDraw_stack (s : State) : (s.nextDraw).stack = s.stack := rfl
@[simp] theorem State.nextDraw_sp (s : State) : (s.nextDraw).sp = s.sp := rfl
@[simp] theorem State.nextDraw_dtS (s : State) : (s.nextDraw).dtS = s.dtS := rfl
@[simp] theorem State.nextDraw_stS (s : State) : (s.nextDraw).stS = s.stS := rfl
@[simp] theorem State.nextDraw_disp (s : State) : (s.nextDraw).disp = s.disp := rfl
@[simp] theorem State.nextDraw_drawFlag (s : State) : (s.nextDraw).drawFlag = s.drawFlag := rfl
@[simp] theorem State.nextDraw_keys (s : State) : (s.nextDraw).keys = s.keys := rfl
@[simp] theorem State.nextDraw_cfgFps (s : State) : (s.nextDraw).cfgFps = s.cfgFps := rfl
@[simp] theorem State.nextDraw_cfgClock (s : State) : (s.nextDraw).cfgClock = s.cfgClock := rfl
@[simp] theorem State.nextDraw_fault (s : State) : (s.nextDraw).fault = s.fault := rfl
@[simp] theorem State.nextDraw_mem (s : State) : (s.nextDraw).mem = s.mem := rfl
@[simp] theorem State.nextDraw_frameLeft (s : State) : (s.nextDraw).frameLeft = s.frameLeft := rfl
@[simp] theorem State.nextDraw_loaded (s : State) : (s.nextDraw).loaded = s.loaded := rfl
@[simp] theorem State.nextDraw_hostOps (s : State) : (s.nextDraw).hostOps = s.hostOps := rfl
@[simp] theorem State.nextDraw_reply (s : State) : (s.nextDraw).reply = s.reply := rfl
@[simp] theorem State.nextDraw_draws (s : State) : (s.nextDraw).draws = s.draws + 1 := rfl

/-! ### advancePc -/

@[simp] theorem State.advancePc_V (s : State) : (s.advancePc).V = s.V := rfl
@[simp] theorem State.advancePc_I (s : State) : (s.advancePc).I = s.I := rfl
@[simp] theorem State.advancePc_pc (s : State) : (s.advancePc).pc = s.pc + 2 := rfl
@[simp] theorem State.advancePc_stack (s : State) : (s.advancePc).stack = s.stack := rfl
@[simp] theorem State.advancePc_sp (s : State) : (s.advancePc).sp = s.sp := rfl
@[simp] theorem State.advancePc_dtS (s : State) : (s.advancePc).dtS = s.dtS := rfl
@[simp] theorem State.advancePc_stS (s : State) : (s.advancePc).stS = s.stS := rfl
@[simp] theorem State.advancePc_disp (s : State) : (s.advancePc).disp = s.disp := rfl
@[simp] theorem State.advancePc_drawFlag (s : State) : (s.advancePc).drawFlag = s.drawFlag := rfl
@[simp] theorem State.advancePc_keys (s : State) : (s.advancePc).keys = s.keys := rfl
@[simp] theorem State.advancePc_cfgFps (s : State) : (s.advancePc).cfgFps = s.cfgFps := rfl
@[simp] theorem State.advancePc_cfgClock (s : State) : (s.advancePc).cfgClock = s.cfgClock := rfl
@[simp] theorem State.advancePc_fault (s : State) : (s.advancePc).fault = s.fault := rfl
@[simp] theorem State.advancePc_mem (s : State) : (s.advancePc).mem = s.mem := rfl
@[simp] theorem State.advancePc_frameLeft (s : State) : (s.advancePc).frameLeft = s.frameLeft := rfl
@[simp] theorem State.advancePc_loaded (s : State) : (s.advancePc).loaded = s.loaded := rfl
@[simp] theorem State.advancePc_hostOps (s : State) : (s.advancePc).hostOps = s.hostOps := rfl
@[simp] theorem State.advancePc_reply (s : State) : (s.advancePc).reply = s.reply := rfl
@[simp] theorem State.advancePc_draws (s : State) : (s.advancePc).draws = s.draws := rfl

/-! ### rewindPc -/

@[simp] theorem State.rewindPc_V (s : State) : (s.rewindPc).V = s.V := rfl
@[simp] theorem State.rewindPc_I (s : State) : (s.rewindPc).I = s.I := rfl
@[simp] theorem State.rewindPc_pc (s : State) : (s.rewindPc).pc = s.pc - 2 := rfl
@[simp] theorem State.rewindPc_stack (s : State) : (s.rewindPc).stack = s.stack := rfl
@[simp] theorem State.rewindPc_sp (s : State) : (s.rewindPc).sp = s.sp := rfl
@[simp] theorem State.rewindPc_dtS (s : State) : (s.rewindPc).dtS = s.dtS := rfl
@[simp] theorem State.rewindPc_stS (s : State) : (s.rewindPc).stS = s.stS := rfl
@[simp] theorem State.rewindPc_disp (s : State) : (s.rewindPc).disp = s.disp := rfl
@[simp] theorem State.rewindPc_drawFlag (s : State) : (s.rewindPc).drawFlag = s.drawFlag := rfl
@[simp] theorem State.rewindPc_keys (s : State) : (s.rewindPc).keys = s.keys := rfl
@[simp] theorem State.rewindPc_cfgFps (s : State) : (s.rewindPc).cfgFps = s.cfgFps := rfl
@[simp] theorem State.rewindPc_cfgClock (s : State) : (s.rewindPc).cfgClock = s.cfgClock := rfl
@[simp] theorem State.rewindPc_fault (s : State) : (s.rewindPc).fault = s.fault := rfl
@[simp] theorem State.rewindPc_mem (s : State) : (s.rewindPc).mem = s.mem := rfl
@[simp] theorem State.rewindPc_frameLeft (s : State) : (s.rewindPc).frameLeft = s.frameLeft := rfl
@[simp] theorem State.rewindPc_loaded (s : State) : (s.rewindPc).loaded = s.loaded := rfl
@[simp] theorem State.rewindPc_hostOps (s : State) : (s.rewindPc).hostOps = s.hostOps := rfl
@[simp] theorem State.rewindPc_reply (s : State) : (s.rewindPc).reply = s.reply := rfl
@[simp] theorem State.rewindPc_draws (s : State) : (s.rewindPc).draws = s.draws := rfl

/-! ### pushPc -/

@[simp] theorem State.pushPc_V (s : State) (h : s.sp.val < Config.stackDepth) : (s.pushPc h).V = s.V := rfl
@[simp] theorem State.pushPc_I (s : State) (h : s.sp.val < Config.stackDepth) : (s.pushPc h).I = s.I := rfl
@[simp] theorem State.pushPc_pc (s : State) (h : s.sp.val < Config.stackDepth) : (s.pushPc h).pc = s.pc := rfl
@[simp] theorem State.pushPc_stack (s : State) (h : s.sp.val < Config.stackDepth) : (s.pushPc h).stack = s.stack.set s.sp.val s.pc h := rfl
@[simp] theorem State.pushPc_sp (s : State) (h : s.sp.val < Config.stackDepth) : (s.pushPc h).sp = ⟨s.sp.val + 1, Nat.succ_lt_succ h⟩ := rfl
@[simp] theorem State.pushPc_dtS (s : State) (h : s.sp.val < Config.stackDepth) : (s.pushPc h).dtS = s.dtS := rfl
@[simp] theorem State.pushPc_stS (s : State) (h : s.sp.val < Config.stackDepth) : (s.pushPc h).stS = s.stS := rfl
@[simp] theorem State.pushPc_disp (s : State) (h : s.sp.val < Config.stackDepth) : (s.pushPc h).disp = s.disp := rfl
@[simp] theorem State.pushPc_drawFlag (s : State) (h : s.sp.val < Config.stackDepth) : (s.pushPc h).drawFlag = s.drawFlag := rfl
@[simp] theorem State.pushPc_keys (s : State) (h : s.sp.val < Config.stackDepth) : (s.pushPc h).keys = s.keys := rfl
@[simp] theorem State.pushPc_cfgFps (s : State) (h : s.sp.val < Config.stackDepth) : (s.pushPc h).cfgFps = s.cfgFps := rfl
@[simp] theorem State.pushPc_cfgClock (s : State) (h : s.sp.val < Config.stackDepth) : (s.pushPc h).cfgClock = s.cfgClock := rfl
@[simp] theorem State.pushPc_fault (s : State) (h : s.sp.val < Config.stackDepth) : (s.pushPc h).fault = s.fault := rfl
@[simp] theorem State.pushPc_mem (s : State) (h : s.sp.val < Config.stackDepth) : (s.pushPc h).mem = s.mem := rfl
@[simp] theorem State.pushPc_frameLeft (s : State) (h : s.sp.val < Config.stackDepth) : (s.pushPc h).frameLeft = s.frameLeft := rfl
@[simp] theorem State.pushPc_loaded (s : State) (h : s.sp.val < Config.stackDepth) : (s.pushPc h).loaded = s.loaded := rfl
@[simp] theorem State.pushPc_hostOps (s : State) (h : s.sp.val < Config.stackDepth) : (s.pushPc h).hostOps = s.hostOps := rfl
@[simp] theorem State.pushPc_reply (s : State) (h : s.sp.val < Config.stackDepth) : (s.pushPc h).reply = s.reply := rfl
@[simp] theorem State.pushPc_draws (s : State) (h : s.sp.val < Config.stackDepth) : (s.pushPc h).draws = s.draws := rfl

/-! ### popPc -/

@[simp] theorem State.popPc_V (s : State) (h : 0 < s.sp.val) : (s.popPc h).V = s.V := rfl
@[simp] theorem State.popPc_I (s : State) (h : 0 < s.sp.val) : (s.popPc h).I = s.I := rfl
@[simp] theorem State.popPc_pc (s : State) (h : 0 < s.sp.val) : (s.popPc h).pc = s.stack[s.sp.val - 1]'(by omega) := rfl
@[simp] theorem State.popPc_stack (s : State) (h : 0 < s.sp.val) : (s.popPc h).stack = s.stack := rfl
@[simp] theorem State.popPc_sp (s : State) (h : 0 < s.sp.val) : (s.popPc h).sp = ⟨s.sp.val - 1, by omega⟩ := rfl
@[simp] theorem State.popPc_dtS (s : State) (h : 0 < s.sp.val) : (s.popPc h).dtS = s.dtS := rfl
@[simp] theorem State.popPc_stS (s : State) (h : 0 < s.sp.val) : (s.popPc h).stS = s.stS := rfl
@[simp] theorem State.popPc_disp (s : State) (h : 0 < s.sp.val) : (s.popPc h).disp = s.disp := rfl
@[simp] theorem State.popPc_drawFlag (s : State) (h : 0 < s.sp.val) : (s.popPc h).drawFlag = s.drawFlag := rfl
@[simp] theorem State.popPc_keys (s : State) (h : 0 < s.sp.val) : (s.popPc h).keys = s.keys := rfl
@[simp] theorem State.popPc_cfgFps (s : State) (h : 0 < s.sp.val) : (s.popPc h).cfgFps = s.cfgFps := rfl
@[simp] theorem State.popPc_cfgClock (s : State) (h : 0 < s.sp.val) : (s.popPc h).cfgClock = s.cfgClock := rfl
@[simp] theorem State.popPc_fault (s : State) (h : 0 < s.sp.val) : (s.popPc h).fault = s.fault := rfl
@[simp] theorem State.popPc_mem (s : State) (h : 0 < s.sp.val) : (s.popPc h).mem = s.mem := rfl
@[simp] theorem State.popPc_frameLeft (s : State) (h : 0 < s.sp.val) : (s.popPc h).frameLeft = s.frameLeft := rfl
@[simp] theorem State.popPc_loaded (s : State) (h : 0 < s.sp.val) : (s.popPc h).loaded = s.loaded := rfl
@[simp] theorem State.popPc_hostOps (s : State) (h : 0 < s.sp.val) : (s.popPc h).hostOps = s.hostOps := rfl
@[simp] theorem State.popPc_reply (s : State) (h : 0 < s.sp.val) : (s.popPc h).reply = s.reply := rfl
@[simp] theorem State.popPc_draws (s : State) (h : 0 < s.sp.val) : (s.popPc h).draws = s.draws := rfl

/-! ### raise -/

@[simp] theorem State.raise_V (s : State) (f : FaultValue) : (s.raise f).V = s.V := rfl
@[simp] theorem State.raise_I (s : State) (f : FaultValue) : (s.raise f).I = s.I := rfl
@[simp] theorem State.raise_pc (s : State) (f : FaultValue) : (s.raise f).pc = s.pc := rfl
@[simp] theorem State.raise_stack (s : State) (f : FaultValue) : (s.raise f).stack = s.stack := rfl
@[simp] theorem State.raise_sp (s : State) (f : FaultValue) : (s.raise f).sp = s.sp := rfl
@[simp] theorem State.raise_dtS (s : State) (f : FaultValue) : (s.raise f).dtS = s.dtS := rfl
@[simp] theorem State.raise_stS (s : State) (f : FaultValue) : (s.raise f).stS = s.stS := rfl
@[simp] theorem State.raise_disp (s : State) (f : FaultValue) : (s.raise f).disp = s.disp := rfl
@[simp] theorem State.raise_drawFlag (s : State) (f : FaultValue) : (s.raise f).drawFlag = s.drawFlag := rfl
@[simp] theorem State.raise_keys (s : State) (f : FaultValue) : (s.raise f).keys = s.keys := rfl
@[simp] theorem State.raise_cfgFps (s : State) (f : FaultValue) : (s.raise f).cfgFps = s.cfgFps := rfl
@[simp] theorem State.raise_cfgClock (s : State) (f : FaultValue) : (s.raise f).cfgClock = s.cfgClock := rfl
@[simp] theorem State.raise_fault (s : State) (f : FaultValue) : (s.raise f).fault = some f := rfl
@[simp] theorem State.raise_mem (s : State) (f : FaultValue) : (s.raise f).mem = s.mem := rfl
@[simp] theorem State.raise_frameLeft (s : State) (f : FaultValue) : (s.raise f).frameLeft = s.frameLeft := rfl
@[simp] theorem State.raise_loaded (s : State) (f : FaultValue) : (s.raise f).loaded = s.loaded := rfl
@[simp] theorem State.raise_hostOps (s : State) (f : FaultValue) : (s.raise f).hostOps = s.hostOps := rfl
@[simp] theorem State.raise_reply (s : State) (f : FaultValue) : (s.raise f).reply = s.reply := rfl
@[simp] theorem State.raise_draws (s : State) (f : FaultValue) : (s.raise f).draws = s.draws := rfl

/-! ### answer -/

@[simp] theorem State.answer_V (s : State) (r : Option Reply) : (s.answer r).V = s.V := rfl
@[simp] theorem State.answer_I (s : State) (r : Option Reply) : (s.answer r).I = s.I := rfl
@[simp] theorem State.answer_pc (s : State) (r : Option Reply) : (s.answer r).pc = s.pc := rfl
@[simp] theorem State.answer_stack (s : State) (r : Option Reply) : (s.answer r).stack = s.stack := rfl
@[simp] theorem State.answer_sp (s : State) (r : Option Reply) : (s.answer r).sp = s.sp := rfl
@[simp] theorem State.answer_dtS (s : State) (r : Option Reply) : (s.answer r).dtS = s.dtS := rfl
@[simp] theorem State.answer_stS (s : State) (r : Option Reply) : (s.answer r).stS = s.stS := rfl
@[simp] theorem State.answer_disp (s : State) (r : Option Reply) : (s.answer r).disp = s.disp := rfl
@[simp] theorem State.answer_drawFlag (s : State) (r : Option Reply) : (s.answer r).drawFlag = s.drawFlag := rfl
@[simp] theorem State.answer_keys (s : State) (r : Option Reply) : (s.answer r).keys = s.keys := rfl
@[simp] theorem State.answer_cfgFps (s : State) (r : Option Reply) : (s.answer r).cfgFps = s.cfgFps := rfl
@[simp] theorem State.answer_cfgClock (s : State) (r : Option Reply) : (s.answer r).cfgClock = s.cfgClock := rfl
@[simp] theorem State.answer_fault (s : State) (r : Option Reply) : (s.answer r).fault = s.fault := rfl
@[simp] theorem State.answer_mem (s : State) (r : Option Reply) : (s.answer r).mem = s.mem := rfl
@[simp] theorem State.answer_frameLeft (s : State) (r : Option Reply) : (s.answer r).frameLeft = s.frameLeft := rfl
@[simp] theorem State.answer_loaded (s : State) (r : Option Reply) : (s.answer r).loaded = s.loaded := rfl
@[simp] theorem State.answer_hostOps (s : State) (r : Option Reply) : (s.answer r).hostOps = s.hostOps := rfl
@[simp] theorem State.answer_reply (s : State) (r : Option Reply) : (s.answer r).reply = r := rfl
@[simp] theorem State.answer_draws (s : State) (r : Option Reply) : (s.answer r).draws = s.draws := rfl

/-! ### skipIf -/

@[simp] theorem State.skipIf_V (s : State) (c : Bool) : (s.skipIf c).V = s.V := by cases c <;> rfl
@[simp] theorem State.skipIf_I (s : State) (c : Bool) : (s.skipIf c).I = s.I := by cases c <;> rfl
theorem State.skipIf_pc (s : State) (c : Bool) : (s.skipIf c).pc = if c then s.pc + 2 else s.pc := by cases c <;> rfl
@[simp] theorem State.skipIf_stack (s : State) (c : Bool) : (s.skipIf c).stack = s.stack := by cases c <;> rfl
@[simp] theorem State.skipIf_sp (s : State) (c : Bool) : (s.skipIf c).sp = s.sp := by cases c <;> rfl
@[simp] theorem State.skipIf_dtS (s : State) (c : Bool) : (s.skipIf c).dtS = s.dtS := by cases c <;> rfl
@[simp] theorem State.skipIf_stS (s : State) (c : Bool) : (s.skipIf c).stS = s.stS := by cases c <;> rfl
@[simp] theorem State.skipIf_disp (s : State) (c : Bool) : (s.skipIf c).disp = s.disp := by cases c <;> rfl
@[simp] theorem State.skipIf_drawFlag (s : State) (c : Bool) : (s.skipIf c).drawFlag = s.drawFlag := by cases c <;> rfl
@[simp] theorem State.skipIf_keys (s : State) (c : Bool) : (s.skipIf c).keys = s.keys := by cases c <;> rfl
@[simp] theorem State.skipIf_cfgFps (s : State) (c : Bool) : (s.skipIf c).cfgFps = s.cfgFps := by cases c <;> rfl
@[simp] theorem State.skipIf_cfgClock (s : State) (c : Bool) : (s.skipIf c).cfgClock = s.cfgClock := by cases c <;> rfl
@[simp] theorem State.skipIf_fault (s : State) (c : Bool) : (s.skipIf c).fault = s.fault := by cases c <;> rfl
@[simp] theorem State.skipIf_mem (s : State) (c : Bool) : (s.skipIf c).mem = s.mem := by cases c <;> rfl
@[simp] theorem State.skipIf_frameLeft (s : State) (c : Bool) : (s.skipIf c).frameLeft = s.frameLeft := by cases c <;> rfl
@[simp] theorem State.skipIf_loaded (s : State) (c : Bool) : (s.skipIf c).loaded = s.loaded := by cases c <;> rfl
@[simp] theorem State.skipIf_hostOps (s : State) (c : Bool) : (s.skipIf c).hostOps = s.hostOps := by cases c <;> rfl
@[simp] theorem State.skipIf_reply (s : State) (c : Bool) : (s.skipIf c).reply = s.reply := by cases c <;> rfl
@[simp] theorem State.skipIf_draws (s : State) (c : Bool) : (s.skipIf c).draws = s.draws := by cases c <;> rfl

/-! ### Register reads after an update -/

theorem State.getV_setV (s : State) (i j : RegIdx) (v : Byte) :
    (s.setV i v).getV j = if j = i then v else s.getV j := by
  simp only [State.getV, State.setV_V, Vector.getElem_set, BitVec.toNat_inj]
  by_cases h : i = j
  · simp [h]
  · simp [h, Ne.symm h]

@[simp] theorem State.getV_setV_same (s : State) (i : RegIdx) (v : Byte) : (s.setV i v).getV i = v := by
  simp [State.getV_setV]

theorem State.getV_setV_ne (s : State) {i j : RegIdx} (h : j ≠ i) (v : Byte) : (s.setV i v).getV j = s.getV j := by
  simp [State.getV_setV, h]

@[simp] theorem State.getV_setI (s : State) (v : Word) (i : RegIdx) : (s.setI v).getV i = s.getV i := rfl
@[simp] theorem State.getV_setPc (s : State) (v : Word) (i : RegIdx) : (s.setPc v).getV i = s.getV i := rfl
@[simp] theorem State.getV_setDt (s : State) (v : Nat) (i : RegIdx) : (s.setDt v).getV i = s.getV i := rfl
@[simp] theorem State.getV_setSt (s : State) (v : Nat) (i : RegIdx) : (s.setSt v).getV i = s.getV i := rfl
@[simp] theorem State.getV_setMem (s : State) (m : List Host.Cell) (i : RegIdx) : (s.setMem m).getV i = s.getV i := rfl
@[simp] theorem State.getV_showDisp (s : State) (d : Disp) (i : RegIdx) : (s.showDisp d).getV i = s.getV i := rfl
@[simp] theorem State.getV_nextDraw (s : State) (i : RegIdx) : (s.nextDraw).getV i = s.getV i := rfl
@[simp] theorem State.getV_advancePc (s : State) (i : RegIdx) : (s.advancePc).getV i = s.getV i := rfl
@[simp] theorem State.getV_rewindPc (s : State) (i : RegIdx) : (s.rewindPc).getV i = s.getV i := rfl
@[simp] theorem State.getV_pushPc (s : State) (h : s.sp.val < Config.stackDepth) (i : RegIdx) : (s.pushPc h).getV i = s.getV i := rfl
@[simp] theorem State.getV_popPc (s : State) (h : 0 < s.sp.val) (i : RegIdx) : (s.popPc h).getV i = s.getV i := rfl
@[simp] theorem State.getV_raise (s : State) (f : FaultValue) (i : RegIdx) : (s.raise f).getV i = s.getV i := rfl
@[simp] theorem State.getV_answer (s : State) (r : Option Reply) (i : RegIdx) : (s.answer r).getV i = s.getV i := rfl
@[simp] theorem State.getV_skipIf (s : State) (c : Bool) (i : RegIdx) : (s.skipIf c).getV i = s.getV i := by cases c <;> rfl

/-! ### Memory reads after an update -/

@[simp] theorem State.readByte_setV (s : State) (i : RegIdx) (v : Byte) (a : Nat) : (s.setV i v).readByte a = s.readByte a := rfl
@[simp] theorem State.readByte_setRegs (s : State) (V : Vector Byte 16) (a : Nat) : (s.setRegs V).readByte a = s.readByte a := rfl
@[simp] theorem State.readByte_setI (s : State) (v : Word) (a : Nat) : (s.setI v).readByte a = s.readByte a := rfl
@[simp] theorem State.readByte_setPc (s : State) (v : Word) (a : Nat) : (s.setPc v).readByte a = s.readByte a := rfl
@[simp] theorem State.readByte_setDt (s : State) (v : Nat) (a : Nat) : (s.setDt v).readByte a = s.readByte a := rfl
@[simp] theorem State.readByte_setSt (s : State) (v : Nat) (a : Nat) : (s.setSt v).readByte a = s.readByte a := rfl
@[simp] theorem State.readByte_showDisp (s : State) (d : Disp) (a : Nat) : (s.showDisp d).readByte a = s.readByte a := rfl
@[simp] theorem State.readByte_nextDraw (s : State) (a : Nat) : (s.nextDraw).readByte a = s.readByte a := rfl
@[simp] theorem State.readByte_advancePc (s : State) (a : Nat) : (s.advancePc).readByte a = s.readByte a := rfl
@[simp] theorem State.readByte_rewindPc (s : State) (a : Nat) : (s.rewindPc).readByte a = s.readByte a := rfl
@[simp] theorem State.readByte_pushPc (s : State) (h : s.sp.val < Config.stackDepth) (a : Nat) : (s.pushPc h).readByte a = s.readByte a := rfl
@[simp] theorem State.readByte_popPc (s : State) (h : 0 < s.sp.val) (a : Nat) : (s.popPc h).readByte a = s.readByte a := rfl
@[simp] theorem State.readByte_raise (s : State) (f : FaultValue) (a : Nat) : (s.raise f).readByte a = s.readByte a := rfl
@[simp] theorem State.readByte_answer (s : State) (r : Option Reply) (a : Nat) : (s.answer r).readByte a = s.readByte a := rfl
@[simp] theorem State.readByte_skipIf (s : State) (c : Bool) (a : Nat) : (s.skipIf c).readByte a = s.readByte a := by cases c <;> rfl
@[simp] theorem State.readByte_setMem (s : State) (m : List Host.Cell) (a : Nat) : (s.setMem m).readByte a = Mem.read m a := rfl

end Sys2Proof.Machine
end

