-- ==== Sys2Proof/Laws/Memory.lean ====
section
/-!
SUPPORT. The laws of memory (20_memory.md): a read after a write to the same byte gives what was written, a write
leaves every other byte alone, and every write keeps the canonical form.
-/
namespace Sys2Proof.Machine

/-! ### One byte -/

/-- A byte below the first cell is unlisted. -/
theorem Mem.read_below {lo : Nat} {m : List Host.Cell} (h : Mem.wfFrom lo m = true) {a : Nat} (ha : a < lo) :
    Mem.read m a = Mem.initial a := by
  induction m generalizing lo with
  | nil => rfl
  | cons c rest ih =>
    obtain ⟨b, v⟩ := c
    simp only [Mem.wfFrom, Bool.and_eq_true, decide_eq_true_eq] at h
    simp only [Mem.read, show a ≠ b by omega, if_false]
    exact ih h.2 (by omega)

/-- The canonical form from an address on is the canonical form from any lower one. -/
theorem Mem.wfFrom_mono {lo lo' : Nat} {m : List Host.Cell} (h : Mem.wfFrom lo m = true) (hle : lo' ≤ lo) :
    Mem.wfFrom lo' m = true := by
  cases m with
  | nil => rfl
  | cons c rest =>
    simp only [Mem.wfFrom, Bool.and_eq_true, decide_eq_true_eq] at h ⊢
    exact ⟨⟨⟨by omega, h.1.1.2⟩, h.1.2⟩, h.2⟩

/-- Putting a byte keeps the canonical form. -/
theorem Mem.wfFrom_put {lo : Nat} {m : List Host.Cell} (h : Mem.wfFrom lo m = true) {a : Nat} (hlo : lo ≤ a)
    (ha : a < Config.memSize) (v : Byte) : Mem.wfFrom lo (Mem.put m a v) = true := by
  induction m generalizing lo with
  | nil =>
    unfold Mem.put
    split <;> simp_all [Mem.wfFrom]
  | cons c rest ih =>
    obtain ⟨b, w⟩ := c
    simp only [Mem.wfFrom, Bool.and_eq_true, decide_eq_true_eq] at h
    obtain ⟨⟨⟨hb, hm⟩, hw⟩, hr⟩ := h
    unfold Mem.put
    split_ifs with h1 h2 h3 h4
    · simp [Mem.wfFrom, hb, hm, hw, hr]
    · simp only [Mem.wfFrom, Bool.and_eq_true, decide_eq_true_eq, bne_iff_ne]
      exact ⟨⟨⟨hlo, ha⟩, h2⟩, ⟨⟨by omega, hm⟩, by simpa using hw⟩, hr⟩
    · exact Mem.wfFrom_mono hr (by omega)
    · subst h3
      simp [Mem.wfFrom, hlo, ha, h4, hr]
    · simp only [Mem.wfFrom, Bool.and_eq_true, decide_eq_true_eq]
      exact ⟨⟨⟨hb, hm⟩, hw⟩, ih hr (by omega)⟩

/-- Putting a byte leaves every other byte alone, whatever the list. -/
theorem Mem.read_put_ne (m : List Host.Cell) {a b : Nat} (v : Byte) (h : b ≠ a) :
    Mem.read (Mem.put m a v) b = Mem.read m b := by
  induction m with
  | nil => unfold Mem.put; split <;> simp [Mem.read, h]
  | cons c rest ih =>
    obtain ⟨a', w⟩ := c
    unfold Mem.put
    split_ifs with h1 h2 h3 h4 <;> simp_all [Mem.read]

/-- A byte just put is what is read. -/
theorem Mem.read_put_same {lo : Nat} {m : List Host.Cell} (h : Mem.wfFrom lo m = true) (a : Nat) (v : Byte) :
    Mem.read (Mem.put m a v) a = v := by
  induction m generalizing lo with
  | nil => unfold Mem.put; split <;> simp_all [Mem.read]
  | cons c rest ih =>
    obtain ⟨b, w⟩ := c
    simp only [Mem.wfFrom, Bool.and_eq_true, decide_eq_true_eq] at h
    unfold Mem.put
    split_ifs with h1 h2 h3 h4
    · simp only [Mem.read, show a ≠ b by omega, if_false]
      rw [Mem.read_below h.2 (by omega), h2]
    · simp [Mem.read]
    · rw [Mem.read_below h.2 (by omega), h4]
    · simp [Mem.read]
    · simp only [Mem.read, h3, if_false]
      exact ih h.2

/-- Every write keeps the canonical form. -/
theorem Mem.wf_write {m : List Host.Cell} (h : Mem.wf m = true) (a : Nat) (v : Byte) :
    Mem.wf (Mem.write m a v) = true := by
  unfold Mem.write
  split
  · exact Mem.wfFrom_put h (Nat.zero_le a) ‹_› v
  · exact h

/-- A write leaves every other byte alone, whatever the list. -/
theorem Mem.read_write_ne (m : List Host.Cell) {a b : Nat} (v : Byte) (h : b ≠ a) :
    Mem.read (Mem.write m a v) b = Mem.read m b := by
  unfold Mem.write
  split
  · exact Mem.read_put_ne m v h
  · rfl

/-- A read after a write to the same address gives the byte written. -/
theorem Mem.read_write_same {m : List Host.Cell} (h : Mem.wf m = true) {a : Nat} (ha : a < Config.memSize) (v : Byte) :
    Mem.read (Mem.write m a v) a = v := by
  simp only [Mem.write, ha, if_true]
  exact Mem.read_put_same h a v

/-! ### A run of bytes -/

/-- Writing a run of bytes keeps the canonical form. -/
theorem Mem.wf_writeBytes {m : List Host.Cell} (h : Mem.wf m = true) (a : Nat) (bs : List Byte) :
    Mem.wf (Mem.writeBytes m a bs) = true := by
  induction bs generalizing m a with
  | nil => exact h
  | cons v rest ih => exact ih (Mem.wf_write h a v) (a + 1)

/-- A run of bytes leaves every byte outside it alone, whatever the list. -/
theorem Mem.read_writeBytes_outside (m : List Host.Cell) (a : Nat) (bs : List Byte) {b : Nat}
    (h : b < a ∨ a + bs.length ≤ b) : Mem.read (Mem.writeBytes m a bs) b = Mem.read m b := by
  induction bs generalizing m a with
  | nil => rfl
  | cons v rest ih =>
    simp only [List.length_cons] at h
    rw [Mem.writeBytes, ih _ _ (by omega), Mem.read_write_ne _ _ (by omega)]

/-- Byte `k` of a run just written, all of it inside memory, is what is read. -/
theorem Mem.read_writeBytes_inside {m : List Host.Cell} (h : Mem.wf m = true) (a : Nat) (bs : List Byte)
    (hb : a + bs.length ≤ Config.memSize) {k : Nat} (hk : k < bs.length) :
    Mem.read (Mem.writeBytes m a bs) (a + k) = bs[k] := by
  induction bs generalizing m a k with
  | nil => simp at hk
  | cons v rest ih =>
    simp only [List.length_cons] at hb hk
    cases k with
    | zero =>
      rw [Mem.writeBytes, Mem.read_writeBytes_outside _ _ _ (by omega)]
      simpa using Mem.read_write_same h (by omega) v
    | succ k =>
      rw [Mem.writeBytes, show a + (k + 1) = a + 1 + k by omega, ih (Mem.wf_write h a v) _ (by omega) (by omega)]
      simp

end Sys2Proof.Machine
end

