-- ==== Sys2Proof/Laws/Ops.lean ====
section
/-!
SUPPORT. What each shared operation can do, said once, for the provers to cite instead of unfolding it.
-/
namespace Sys2Proof.Machine

/-! ### Outcomes -/

@[simp] theorem Result.andThen_next (s : State) (k : State → Result) :
    Result.andThen (.next s) k = k s := rfl

/-- A sequence answers a next state only through a next state of its first part. -/
theorem Result.andThen_eq_next {r : Result} {k : State → Result} {t : State} :
    r.andThen k = .next t ↔ ∃ s, r = .next s ∧ k s = .next t := by
  cases r <;> simp [Result.andThen]

@[simp] theorem takeFault_eq (f : FaultValue) (s : State) : takeFault f s = .next (s.raise f) := rfl

/-- The range check lets an access through, or takes AddressOutOfRange and nothing else. -/
theorem checkAddr_cases (kind : AccessKind) (a : Nat) (s : State) (k : State → Result) :
    (a < Config.memSize ∧ checkAddr kind a s k = k s) ∨
      (Config.memSize ≤ a ∧ checkAddr kind a s k = .next (s.raise (.addressOutOfRange kind a))) := by
  unfold checkAddr
  by_cases h : a < Config.memSize
  · exact .inl ⟨h, by simp [h]⟩
  · exact .inr ⟨by omega, by simp [h]⟩

theorem checkAddr_inside {kind : AccessKind} {a : Nat} (h : a < Config.memSize) (s : State) (k : State → Result) :
    checkAddr kind a s k = k s := by simp [checkAddr, h]

theorem checkAddr_outside {kind : AccessKind} {a : Nat} (h : Config.memSize ≤ a) (s : State) (k : State → Result) :
    checkAddr kind a s k = .next (s.raise (.addressOutOfRange kind a)) := by
  simp [checkAddr, Nat.not_lt.mpr h]

/-- A key instruction reads a key the array has, or takes KeyIndexOutOfRange and nothing else. -/
theorem withKey_cases (x : RegIdx) (s : State) (k : Bool → Result) :
    (∃ h : (s.getV x).toNat < 16, withKey x s k = k s.keys[(s.getV x).toNat]) ∨
      (16 ≤ (s.getV x).toNat ∧ withKey x s k = .next (s.raise (.keyIndexOutOfRange (s.getV x)))) := by
  unfold withKey
  by_cases h : (s.getV x).toNat < 16
  · exact .inl ⟨h, by simp [h]⟩
  · exact .inr ⟨by omega, by simp [h]⟩

/-! ### Operands -/

theorem zextAddr_toNat (nnn : Addr12) : (zextAddr nnn).toNat = nnn.toNat := by
  simp [zextAddr, Nat.mod_eq_of_lt (show nnn.toNat < 65536 by omega)]

@[simp] theorem bcdDigits_length (v : Byte) : (bcdDigits v).length = 3 := rfl

theorem State.regBlock_length (s : State) (x : RegIdx) : (s.regBlock x).length = x.toNat + 1 := by
  simp [State.regBlock]
  omega

theorem State.regBlock_get (s : State) (x : RegIdx) {k : Nat} (h : k < (s.regBlock x).length) :
    (s.regBlock x)[k] = s.V[k]'(by simp [State.regBlock] at h; omega) := by
  simp [State.regBlock]

/-- FX65 loads the registers up to x and leaves the others. -/
theorem State.regsFromMem_get (s : State) (x i : RegIdx) :
    (s.setRegs (s.regsFromMem x)).getV i = if i.toNat ≤ x.toNat then s.readByte (s.addrI i.toNat) else s.getV i := by
  simp [State.getV, State.regsFromMem]

/-- The least held key: no key is held, or it is held and none below it is. -/
theorem leastHeld_eq_none {keys : Vector Bool 16} : leastHeld keys = none ↔ ∀ k : Fin 16, keys[k] = false := by
  constructor
  · intro h k
    have := List.findIdx?_eq_none_iff.mp h keys[k] (by simp)
    simpa using this
  · intro h
    refine List.findIdx?_eq_none_iff.mpr fun b hb => ?_
    obtain ⟨k, hk, rfl⟩ := List.getElem_of_mem hb
    simpa using h ⟨k, by simpa using hk⟩

theorem leastHeld_eq_some {keys : Vector Bool 16} {k : Nat} :
    leastHeld keys = some k ↔ ∃ h : k < 16, keys[k] = true ∧ ∀ j (hj : j < k), keys[j] = false := by
  unfold leastHeld
  rw [List.findIdx?_eq_some_iff_getElem]
  simp

/-! ### Flags -/

/-- A flag-writing instruction writes V[x] and VF, and nothing else of the register file, in every order. -/
theorem State.getV_aluWithFlag_ne (s : State) (op : FlagOp) {x y i : RegIdx} (hx : i ≠ x) (hf : i ≠ Config.flagReg) :
    (s.aluWithFlag op x y).getV i = s.getV i := by
  have hf : i ≠ 15#4 := hf
  unfold State.aluWithFlag State.writeInOrder
  split_ifs
  · simp [State.getV_setV, hx, hf]
  · cases Config.vfAliasOrder <;> simp [State.getV_setV, hx, hf]

/-- A flag-writing instruction only writes registers. -/
theorem State.aluWithFlag_eq (s : State) (op : FlagOp) (x y : RegIdx) :
    s.aluWithFlag op x y = s.setRegs (s.aluWithFlag op x y).V := by
  unfold State.aluWithFlag State.writeInOrder
  split_ifs
  · rfl
  · cases Config.vfAliasOrder <;> rfl

/-! ### The draw -/

/-- A draw writes VF, the display and `draw_flag`, nothing else. -/
theorem State.drawSprite_eq (s : State) (xy : Byte × Byte) (n : Nat) :
    s.drawSprite xy n =
      (s.setV Config.flagReg (b2n (drawRows s xy.1 xy.2 (s.disp, false) n).2)).showDisp
        (drawRows s xy.1 xy.2 (s.disp, false) n).1 := rfl

/-- A sprite pixel changes one cell at most. -/
theorem Disp.cell_setCell (d : Disp) (cx cx' : Fin 64) (cy cy' : Fin 32) (b : Bool) :
    (d.setCell cx cy b).cell cx' cy' = if cx' = cx ∧ cy' = cy then b else d.cell cx' cy' := by
  unfold Disp.cell Disp.setCell
  by_cases hx : cx' = cx
  · subst hx
    by_cases hy : cy' = cy
    · subst hy; simp
    · simp [hy, Fin.val_ne_of_ne (Ne.symm hy)]
  · simp [hx, Fin.val_ne_of_ne (Ne.symm hx)]

/-! ### The cycle -/

/-- What a cycle can do: nothing when halted; a fetch fault; UnknownInstruction; or the meaning of the word. -/
theorem cycle_cases (s : State) :
    (s.fault ≠ none ∧ cycle s = .next s) ∨
      (s.fault = none ∧ Config.memSize ≤ s.pc.toNat + 1 ∧
        cycle s = .next (s.raise (.addressOutOfRange .fetch (s.pc.toNat + 1)))) ∨
      (s.fault = none ∧ s.pc.toNat + 1 < Config.memSize ∧
        let w := wordOfBytes (s.readByte s.pc.toNat) (s.readByte (s.pc.toNat + 1))
        (decodeWord w = none ∧ cycle s = .next (s.advancePc.raise (.unknownInstruction w))) ∨
          ∃ i, decodeWord w = some i ∧ cycle s = exec i s.advancePc) := by
  unfold cycle
  cases hf : s.fault with
  | some f => exact .inl ⟨by simp, rfl⟩
  | none =>
    refine .inr ?_
    by_cases hp : s.pc.toNat + 1 < Config.memSize
    · refine .inr ⟨rfl, hp, ?_⟩
      simp only [fetchBytes, hp, if_true, dispatchBytes, decode]
      cases hd : decodeWord (wordOfBytes (s.readByte s.pc.toNat) (s.readByte (s.pc.toNat + 1))) with
      | none => exact .inl ⟨rfl, by simp⟩
      | some i => exact .inr ⟨i, rfl, by simp⟩
    · exact .inl ⟨rfl, by omega, by simp [fetchBytes, hp]⟩

end Sys2Proof.Machine
end

