-- ==== Sys2Proof/Laws/Display.lean ====
section
/-!
SUPPORT. What the draw of one sprite row does to the display and the collision (45_display.md rules R161, R162):
each column lands on a cell of its own, so the order of the pixels does not matter.
-/
namespace Sys2Proof.Machine

/-- The column of the sprite, counted with wrap from x0, that lands on display column cx. -/
def colOf (x0 : Byte) (cx : Fin 64) : Nat := (cx.val + 64 - x0.toNat % 64) % 64

/-- A column below 64 lands on one display column only. -/
theorem colOf_eq_iff (x0 : Byte) (cx : Fin 64) {k : Nat} (hk : k < 64) : colOf x0 cx = k ↔ cx = spriteCol x0 k := by
  rw [Fin.ext_iff]
  simp only [colOf, spriteCol, Fin.val_ofNat]
  have := cx.isLt
  omega

/-- The cells after the first `k` columns of a row: exclusive-or with the sprite's bits on that row. -/
theorem drawCols_cell (b x0 : Byte) (cy : Fin 32) (c : Disp × Bool) {k : Nat} (hk : k ≤ 8) (cx' : Fin 64)
    (cy' : Fin 32) :
    (drawCols b x0 cy c k).1.cell cx' cy' =
      (c.1.cell cx' cy' ^^ (decide (cy' = cy) && decide (colOf x0 cx' < k) && spriteBit b (colOf x0 cx'))) := by
  induction k with
  | zero => simp [drawCols]
  | succ k ih =>
    have ih := ih (by omega)
    have hcol := colOf_eq_iff x0 cx' (k := k) (by omega)
    have hlt : colOf x0 cx' ≠ k → (colOf x0 cx' < k + 1 ↔ colOf x0 cx' < k) := by omega
    simp only [drawCols, drawPixel]
    split_ifs with hb
    · rw [Disp.cell_setCell]
      by_cases h : cx' = spriteCol x0 k ∧ cy' = cy
      · have hc := hcol.mpr h.1
        obtain ⟨rfl, rfl⟩ := h
        simp [ih, hc, hb]
      · rw [if_neg h, ih]
        by_cases hy : cy' = cy
        · rw [decide_eq_decide.mpr (hlt fun e => h ⟨hcol.mp e, hy⟩)]
        · simp [hy]
    · rw [ih]
      by_cases he : colOf x0 cx' = k
      · simp [he, hb]
      · rw [decide_eq_decide.mpr (hlt he)]

/-- The collision after the first `k` columns of a row: some cell under a 1 bit was lit. -/
theorem drawCols_hit (b x0 : Byte) (cy : Fin 32) (c : Disp × Bool) {k : Nat} (hk : k ≤ 8) :
    (drawCols b x0 cy c k).2 = true ↔
      c.2 = true ∨ ∃ cx, colOf x0 cx < k ∧ spriteBit b (colOf x0 cx) = true ∧ c.1.cell cx cy = true := by
  induction k with
  | zero => simp [drawCols]
  | succ k ih =>
    have ih := ih (by omega)
    have hk' := (colOf_eq_iff x0 (spriteCol x0 k) (k := k) (by omega)).mpr rfl
    simp only [drawCols, drawPixel]
    split_ifs with hb
    · rw [Bool.or_eq_true, ih, drawCols_cell _ _ _ _ (by omega)]
      simp only [hk', lt_irrefl, decide_false, Bool.and_false, Bool.false_and, Bool.xor_false]
      constructor
      · rintro ((h | ⟨cx, h1, h2⟩) | h)
        · exact .inl h
        · exact .inr ⟨cx, by omega, h2⟩
        · exact .inr ⟨_, by omega, by rw [hk']; exact hb, h⟩
      · rintro (h | ⟨cx, h1, h2, h3⟩)
        · exact .inl (.inl h)
        · by_cases he : colOf x0 cx = k
          · rw [(colOf_eq_iff x0 cx (by omega)).mp he] at h3
            exact .inr h3
          · exact .inl (.inr ⟨cx, by omega, h2, h3⟩)
    · rw [ih]
      constructor
      · rintro (h | ⟨cx, h1, h2⟩)
        · exact .inl h
        · exact .inr ⟨cx, by omega, h2⟩
      · rintro (h | ⟨cx, h1, h2, h3⟩)
        · exact .inl h
        · by_cases he : colOf x0 cx = k
          · rw [he] at h2; exact absurd h2 hb
          · exact .inr ⟨cx, by omega, h2, h3⟩

end Sys2Proof.Machine
end

