-- ==== Sys2Proof/Laws/PerInstr.lean ====
section
/-!
SUPPORT. Per instruction: its encoding is a word of its own row of the opcode map (30_encoding.md rule R75).
-/
namespace Sys2Proof.Laws

/-- The word of the instruction matches the mask and pattern of its row (R75). -/
def RowOfEncoding.Statement (i : Instr) : Prop := i.row.matchesWord (encode i) = true

theorem RowOfEncoding.cls : RowOfEncoding.Statement .cls := by
  simp [RowOfEncoding.Statement, OpcodeRow.matchesWord, Instr.row, encode]

theorem RowOfEncoding.ret : RowOfEncoding.Statement .ret := by
  simp [RowOfEncoding.Statement, OpcodeRow.matchesWord, Instr.row, encode]

theorem RowOfEncoding.jp (nnn : Addr12) : RowOfEncoding.Statement (.jp nnn) := by
  simp [RowOfEncoding.Statement, OpcodeRow.matchesWord, Instr.row, encode]; rfl

theorem RowOfEncoding.call (nnn : Addr12) : RowOfEncoding.Statement (.call nnn) := by
  simp [RowOfEncoding.Statement, OpcodeRow.matchesWord, Instr.row, encode]; rfl

theorem RowOfEncoding.seImm (x : RegIdx) (nn : Byte) : RowOfEncoding.Statement (.seImm x nn) := by
  simp [RowOfEncoding.Statement, OpcodeRow.matchesWord, Instr.row, encode]; rfl

theorem RowOfEncoding.sneImm (x : RegIdx) (nn : Byte) : RowOfEncoding.Statement (.sneImm x nn) := by
  simp [RowOfEncoding.Statement, OpcodeRow.matchesWord, Instr.row, encode]; rfl

theorem RowOfEncoding.seReg (x : RegIdx) (y : RegIdx) : RowOfEncoding.Statement (.seReg x y) := by
  simp [RowOfEncoding.Statement, OpcodeRow.matchesWord, Instr.row, encode]; rfl

theorem RowOfEncoding.ldImm (x : RegIdx) (nn : Byte) : RowOfEncoding.Statement (.ldImm x nn) := by
  simp [RowOfEncoding.Statement, OpcodeRow.matchesWord, Instr.row, encode]; rfl

theorem RowOfEncoding.addImm (x : RegIdx) (nn : Byte) : RowOfEncoding.Statement (.addImm x nn) := by
  simp [RowOfEncoding.Statement, OpcodeRow.matchesWord, Instr.row, encode]; rfl

theorem RowOfEncoding.ldReg (x : RegIdx) (y : RegIdx) : RowOfEncoding.Statement (.ldReg x y) := by
  simp [RowOfEncoding.Statement, OpcodeRow.matchesWord, Instr.row, encode]; rfl

theorem RowOfEncoding.orReg (x : RegIdx) (y : RegIdx) : RowOfEncoding.Statement (.orReg x y) := by
  simp [RowOfEncoding.Statement, OpcodeRow.matchesWord, Instr.row, encode]; rfl

theorem RowOfEncoding.andReg (x : RegIdx) (y : RegIdx) : RowOfEncoding.Statement (.andReg x y) := by
  simp [RowOfEncoding.Statement, OpcodeRow.matchesWord, Instr.row, encode]; rfl

theorem RowOfEncoding.xorReg (x : RegIdx) (y : RegIdx) : RowOfEncoding.Statement (.xorReg x y) := by
  simp [RowOfEncoding.Statement, OpcodeRow.matchesWord, Instr.row, encode]; rfl

theorem RowOfEncoding.addReg (x : RegIdx) (y : RegIdx) : RowOfEncoding.Statement (.addReg x y) := by
  simp [RowOfEncoding.Statement, OpcodeRow.matchesWord, Instr.row, encode]; rfl

theorem RowOfEncoding.sub (x : RegIdx) (y : RegIdx) : RowOfEncoding.Statement (.sub x y) := by
  simp [RowOfEncoding.Statement, OpcodeRow.matchesWord, Instr.row, encode]; rfl

theorem RowOfEncoding.shr (x : RegIdx) (y : RegIdx) : RowOfEncoding.Statement (.shr x y) := by
  simp [RowOfEncoding.Statement, OpcodeRow.matchesWord, Instr.row, encode]; rfl

theorem RowOfEncoding.subn (x : RegIdx) (y : RegIdx) : RowOfEncoding.Statement (.subn x y) := by
  simp [RowOfEncoding.Statement, OpcodeRow.matchesWord, Instr.row, encode]; rfl

theorem RowOfEncoding.shl (x : RegIdx) (y : RegIdx) : RowOfEncoding.Statement (.shl x y) := by
  simp [RowOfEncoding.Statement, OpcodeRow.matchesWord, Instr.row, encode]; rfl

theorem RowOfEncoding.sneReg (x : RegIdx) (y : RegIdx) : RowOfEncoding.Statement (.sneReg x y) := by
  simp [RowOfEncoding.Statement, OpcodeRow.matchesWord, Instr.row, encode]; rfl

theorem RowOfEncoding.ldI (nnn : Addr12) : RowOfEncoding.Statement (.ldI nnn) := by
  simp [RowOfEncoding.Statement, OpcodeRow.matchesWord, Instr.row, encode]; rfl

theorem RowOfEncoding.jpV0 (nnn : Addr12) : RowOfEncoding.Statement (.jpV0 nnn) := by
  simp [RowOfEncoding.Statement, OpcodeRow.matchesWord, Instr.row, encode]; rfl

theorem RowOfEncoding.rnd (x : RegIdx) (nn : Byte) : RowOfEncoding.Statement (.rnd x nn) := by
  simp [RowOfEncoding.Statement, OpcodeRow.matchesWord, Instr.row, encode]; rfl

theorem RowOfEncoding.drw (x : RegIdx) (y : RegIdx) (n : Nibble) : RowOfEncoding.Statement (.drw x y n) := by
  simp [RowOfEncoding.Statement, OpcodeRow.matchesWord, Instr.row, encode]; rfl

theorem RowOfEncoding.skp (x : RegIdx) : RowOfEncoding.Statement (.skp x) := by
  simp [RowOfEncoding.Statement, OpcodeRow.matchesWord, Instr.row, encode]; rfl

theorem RowOfEncoding.sknp (x : RegIdx) : RowOfEncoding.Statement (.sknp x) := by
  simp [RowOfEncoding.Statement, OpcodeRow.matchesWord, Instr.row, encode]; rfl

theorem RowOfEncoding.ldVxDt (x : RegIdx) : RowOfEncoding.Statement (.ldVxDt x) := by
  simp [RowOfEncoding.Statement, OpcodeRow.matchesWord, Instr.row, encode]; rfl

theorem RowOfEncoding.ldVxKey (x : RegIdx) : RowOfEncoding.Statement (.ldVxKey x) := by
  simp [RowOfEncoding.Statement, OpcodeRow.matchesWord, Instr.row, encode]; rfl

theorem RowOfEncoding.ldDtVx (x : RegIdx) : RowOfEncoding.Statement (.ldDtVx x) := by
  simp [RowOfEncoding.Statement, OpcodeRow.matchesWord, Instr.row, encode]; rfl

theorem RowOfEncoding.ldStVx (x : RegIdx) : RowOfEncoding.Statement (.ldStVx x) := by
  simp [RowOfEncoding.Statement, OpcodeRow.matchesWord, Instr.row, encode]; rfl

theorem RowOfEncoding.addI (x : RegIdx) : RowOfEncoding.Statement (.addI x) := by
  simp [RowOfEncoding.Statement, OpcodeRow.matchesWord, Instr.row, encode]; rfl

theorem RowOfEncoding.ldFont (x : RegIdx) : RowOfEncoding.Statement (.ldFont x) := by
  simp [RowOfEncoding.Statement, OpcodeRow.matchesWord, Instr.row, encode]; rfl

theorem RowOfEncoding.ldBcd (x : RegIdx) : RowOfEncoding.Statement (.ldBcd x) := by
  simp [RowOfEncoding.Statement, OpcodeRow.matchesWord, Instr.row, encode]; rfl

theorem RowOfEncoding.storeRegs (x : RegIdx) : RowOfEncoding.Statement (.storeRegs x) := by
  simp [RowOfEncoding.Statement, OpcodeRow.matchesWord, Instr.row, encode]; rfl

theorem RowOfEncoding.loadRegs (x : RegIdx) : RowOfEncoding.Statement (.loadRegs x) := by
  simp [RowOfEncoding.Statement, OpcodeRow.matchesWord, Instr.row, encode]; rfl

end Sys2Proof.Laws
end

