-- ==== Sys2Proof/Tests/Slice0.lean ====
section
/-!
SUPPORT. Tests of the model's own: decoding against words written out from 30_encoding.md rule R75, single cycles
against the vectors T1 to T124 and examples S1 to S11 of 95_test_vectors.md, and one witness for each statement that
has hypotheses. No expected value comes from the model.
-/
namespace Sys2Proof.Tests
open Sys2Proof Sys2Proof.Machine

/-! ### Words (R75, R77) -/

/-- One ill-formed word of each illegal class of R77, and the one of S11. -/
theorem test_ill_formed_words :
    [0x0000, 0x00E1, 0x0FFF, 0x5121, 0x8008, 0x8ABF, 0x9AB1, 0xE000, 0xE19F, 0xF000, 0xF1FF].map wellFormedWord =
      List.replicate 11 false := by decide

theorem test_well_formed_words :
    [0x00E0, 0x00EE, 0x1FFF, 0x5120, 0x800E, 0x9AB0, 0xD010, 0xEF9E, 0xF065].map wellFormedWord =
      List.replicate 9 true := by decide

/-- 0000 0000 1110 0000, 0000 0000 1110 1110, 0001 aaaa aaaa aaaa, 0010 aaaa aaaa aaaa, 1011 aaaa aaaa aaaa. -/
theorem test_decode_control :
    [0x00E0, 0x00EE, 0x1ABC, 0x2208, 0xB300].map decodeWord =
      [some .cls, some .ret, some (.jp 0xABC), some (.call 0x208), some (.jpV0 0x300)] := by decide

/-- 0011 xxxx kkkk kkkk, 0100 xxxx kkkk kkkk, 0101 xxxx yyyy 0000, 1001 xxxx yyyy 0000. -/
theorem test_decode_skips :
    [0x332A, 0x432A, 0x5120, 0x9120].map decodeWord =
      [some (.seImm 3 0x2A), some (.sneImm 3 0x2A), some (.seReg 1 2), some (.sneReg 1 2)] := by decide

/-- 0110 xxxx kkkk kkkk, 0111 xxxx kkkk kkkk, 1000 xxxx yyyy and the sub-selectors 0 to 7 and E. -/
theorem test_decode_alu :
    [0x6A2F, 0x7003, 0x8010, 0x8A11, 0x8122, 0x8123, 0x8124, 0x8125, 0x82F6, 0x8127, 0x812E].map decodeWord =
      [some (.ldImm 0xA 0x2F), some (.addImm 0 3), some (.ldReg 0 1), some (.orReg 0xA 1), some (.andReg 1 2),
        some (.xorReg 1 2), some (.addReg 1 2), some (.sub 1 2), some (.shr 2 0xF), some (.subn 1 2),
        some (.shl 1 2)] := by decide

/-- 1010 aaaa aaaa aaaa, and 1111 xxxx with 1E, 29, 33, 55, 65. -/
theorem test_decode_index_memory :
    [0xA300, 0xF21E, 0xFA29, 0xF033, 0xFF55, 0xF265].map decodeWord =
      [some (.ldI 0x300), some (.addI 2), some (.ldFont 0xA), some (.ldBcd 0), some (.storeRegs 0xF),
        some (.loadRegs 2)] := by decide

/-- 1100 xxxx kkkk kkkk; 1101 xxxx yyyy nnnn (T120); 1110 xxxx with 9E, A1; 1111 xxxx with 07, 0A, 15, 18. -/
theorem test_decode_devices :
    [0xC10F, 0xD12F, 0xE59E, 0xE5A1, 0xF107, 0xF30A, 0xF015, 0xF018].map decodeWord =
      [some (.rnd 1 0xF), some (.drw 1 2 0xF), some (.skp 5), some (.sknp 5), some (.ldVxDt 1), some (.ldVxKey 3),
        some (.ldDtVx 0), some (.ldStVx 0)] := by decide

/-- The same words from their instructions. -/
theorem test_encode :
    [Instr.jp 0xABC, .sneReg 1 2, .shr 2 0xF, .drw 1 2 0xF, .sknp 5, .loadRegs 2].map encode =
      [0x1ABC, 0x9120, 0x82F6, 0xD12F, 0xE5A1, 0xF265] := by decide

/-- A single byte is no instruction (R70). -/
theorem test_decode_one_byte : decode [0x12] = .error .tooShort := by decide

/-- The table's numbering: bits 15 to 8 are the first byte (R53). -/
theorem test_decode_table_word : decodeTableWord 16 0xD12F = some (.drw 1 2 0xF) := by decide

/-- 0x00FD is rendered `00FD` (R86), 0x8ABF `8ABF` (S11). -/
theorem test_unknown_word_text :
    [unknownWordText 0x00FD, unknownWordText 0x8ABF] = [['0', '0', 'F', 'D'], ['8', 'A', 'B', 'F']] := by decide

/-! ### A helper: one cycle -/

/-- `s` with the word at 0x0200 and `pc` there. -/
def place (s : State) (w : Word) : State :=
  { s with mem := Mem.writeBytes s.mem 0x200 [highByte w, lowByte w], pc := 0x200 }

/-- The state after one cycle of the word at 0x0200. -/
def after (w : Word) (s : State) : State :=
  match cycle (place s w) with
  | .next t => t
  | _ => s

/-- The reset state with V0 and V1 set. -/
def with01 (a b : Byte) : State := (State.reset.setV 0 a).setV 1 b

/-! ### Control flow (T1 to T10) -/

theorem test_jp : (after 0x120A State.reset).pc = 0x20A := by decide

theorem test_call : (fun t : State => (t.stack[0], t.sp.val, t.pc)) (after 0x2208 State.reset) = (0x202, 1, 0x208) := by
  decide

theorem test_call_full :
    (fun t : State => (t.fault, t.sp.val, t.pc)) (after 0x2300 { State.reset with sp := 48 }) =
      (some .stackOverflow, 48, 0x202) := by decide

theorem test_ret :
    (fun t : State => (t.sp.val, t.pc)) (after 0x00EE { State.reset with sp := 1, stack := State.reset.stack.set 0 0x204 }) =
      (0, 0x204) := by decide

theorem test_ret_empty :
    (fun t : State => (t.fault, t.sp.val, t.pc)) (after 0x00EE State.reset) = (some .stackUnderflow, 0, 0x202) := by decide

theorem test_jp_v0 : (after 0xBFFF (with01 0xFF 0)).pc = 0x10FE := by decide

/-! ### Skips (T11 to T21) -/

theorem test_se_imm :
    [0x2A, 0x2B].map (fun v => (after 0x332A (State.reset.setV 3 v)).pc) = [0x204, 0x202] := by decide

theorem test_sne_imm :
    [0x2A, 0x00].map (fun v => (after 0x432A (State.reset.setV 3 v)).pc) = [0x202, 0x204] := by decide

theorem test_se_reg : [after 0x5010 (with01 7 7), after 0x5010 (with01 7 8)].map State.pc = [0x204, 0x202] := by decide

theorem test_sne_reg : [after 0x9010 (with01 7 7), after 0x9010 (with01 7 8)].map State.pc = [0x202, 0x204] := by decide

/-! ### ALU (T22 to T53) -/

theorem test_ld_imm : (after 0x6A2F State.reset).getV 0xA = 0x2F := by decide

theorem test_add_imm_wraps :
    (fun t : State => (t.getV 0, t.getV 15)) (after 0x7001 ((with01 0xFF 0).setV 15 0)) = (0, 0) := by decide

theorem test_ld_reg : (after 0x8010 (with01 0 0x33)).getV 0 = 0x33 := by decide

theorem test_logic_keeps_vf :
    [0x8011, 0x8012, 0x8013].map (fun w => (fun t : State => (t.getV 0, t.getV 15)) (after w ((with01 0xF0 0x3C).setV 15 0x55))) =
      [(0xFC, 0x55), (0x30, 0x55), (0xCC, 0x55)] := by decide

theorem test_add_reg :
    [(0xFF, 0x01), (0xFE, 0x01), (0xFF, 0xFF), (0x00, 0x00)].map
        (fun p => (fun t : State => (t.getV 0, t.getV 15)) (after 0x8014 ((with01 p.1 p.2).setV 15 1))) =
      [(0x00, 1), (0xFF, 0), (0xFE, 1), (0x00, 0)] := by decide

theorem test_sub :
    [(0x00, 0x01), (0x05, 0x05), (0xFF, 0x00), (0x00, 0xFF)].map
        (fun p => (fun t : State => (t.getV 0, t.getV 15)) (after 0x8015 (with01 p.1 p.2))) =
      [(0xFF, 0), (0x00, 1), (0xFF, 1), (0x01, 0)] := by decide

theorem test_subn :
    [(0x01, 0x03), (0x03, 0x01), (0x04, 0x04)].map
        (fun p => (fun t : State => (t.getV 0, t.getV 15)) (after 0x8017 (with01 p.1 p.2))) =
      [(0x02, 1), (0xFE, 0), (0x00, 1)] := by decide

/-- T40 to T42: the y field, here 0xF, is ignored. -/
theorem test_shr :
    [0x05, 0x80].map (fun v => (fun t : State => (t.getV 2, t.getV 15)) (after 0x82F6 ((State.reset.setV 2 v).setV 15 0xEE))) =
      [(0x02, 1), (0x40, 0)] := by decide

theorem test_shl :
    [0xFF, 0x7F, 0x80].map (fun v => (fun t : State => (t.getV 0, t.getV 15)) (after 0x800E (with01 v 0))) =
      [(0xFE, 1), (0xFE, 0), (0x00, 1)] := by decide

/-- T50 to T52: 8F14, 8F15, 8F06 in the three orders. -/
theorem test_vf_alias_x :
    [VfAliasOrder.flagLast, .resultLast, .flagFirstReread].map (fun o =>
        [((State.reset.setV 15 0xFF).setV 1 1).writeInOrder o .add 15 1,
         ((State.reset.setV 15 0x05).setV 1 3).writeInOrder o .sub 15 1,
         (State.reset.setV 15 0x03).writeInOrder o .shr 15 15].map (fun t : State => t.getV 15)) =
      [[1, 1, 1], [0x00, 0x02, 0x01], [0x02, 0xFE, 0x00]] := by decide

/-- T53: 80F4 in the three orders. -/
theorem test_vf_alias_y :
    [VfAliasOrder.flagLast, .resultLast, .flagFirstReread].map (fun o =>
        (fun t : State => (t.getV 0, t.getV 15)) (((with01 0x10 0).setV 15 2).writeInOrder o .add 0 15)) =
      [(0x12, 0), (0x12, 0), (0x10, 0)] := by decide

/-! ### Address register and memory (T54 to T72) -/

theorem test_ld_i : (after 0xA300 State.reset).I = 0x300 := by decide

theorem test_add_i :
    [(0x0300, 0x02), (0x0FFF, 0x01), (0xFFFF, 0x02)].map (fun p => (after 0xF01E ((with01 p.2 0).setI p.1)).I) =
      [0x302, 0x1000, 0x0001] := by decide

theorem test_ld_font : [0x01, 0x0F, 0x00].map (fun v => (after 0xF029 (with01 v 0)).I) = [0x55, 0x9B, 0x50] := by decide

/-- T61: 0x1A under the two values of the parameter. -/
theorem test_ld_font_high : [FontHighNibble.mask, .nomask].map (fun p => fontAddr p 0x1A) = [0x82, 0xD2] := by decide

theorem test_ld_bcd :
    (fun t : State => [0xFFC, 0xFFD, 0xFFE, 0xFFF].map t.readByte) (after 0xF033 ((with01 0xFF 0).setI 0xFFD)) = [0, 2, 5, 5] := by
  decide

theorem test_ld_bcd_past_end :
    (fun t : State => (t.fault, [0xFFE, 0xFFF].map t.readByte, t.pc)) (after 0xF033 ((with01 0xFF 0).setI 0xFFE)) =
      (some (.addressOutOfRange .write 0x1000), [0, 0], 0x202) := by decide

theorem test_store_regs :
    (fun t : State => ([0x400, 0x401, 0x402].map t.readByte, t.I)) (after 0xF155 ((with01 0x11 0x22).setI 0x400)) =
      ([0x11, 0x22, 0], 0x400) := by decide

theorem test_load_regs_glyph0 :
    (fun t : State => [0, 1, 2, 3, 4, 5].map t.getV) (after 0xF465 (State.reset.setI 0x50)) =
      [0xF0, 0x90, 0x90, 0x90, 0xF0, 0] := by decide

theorem test_load_regs_past_end :
    (fun t : State => (t.fault, t.getV 0)) (after 0xF165 ((with01 0x77 0).setI 0xFFF)) =
      (some (.addressOutOfRange .read 0x1000), 0x77) := by decide

/-- The font bytes of glyphs 1, 7, A and F (R52). -/
theorem test_font :
    [0x055, 0x073, 0x082, 0x09B].map (fun a => [0, 1, 2, 3, 4].map fun k => State.reset.readByte (a + k)) =
      [[0x20, 0x60, 0x20, 0x20, 0x70], [0xF0, 0x10, 0x20, 0x40, 0x40], [0xF0, 0x90, 0xF0, 0x90, 0x90],
        [0xF0, 0x80, 0xF0, 0x80, 0x80]] := by decide

/-! ### Random and display (T73 to T85) -/

/-- T74: a mask of 0 gives 0 for every random byte. -/
theorem test_rnd_zero_mask : (after 0xC100 State.reset).getV 1 = 0 :=
  (show (after 0xC100 State.reset).getV 1 = Config.randomByte 0 &&& 0 from rfl).trans BitVec.and_zero

theorem test_cls :
    (fun t : State => (t.disp == clearDisp, t.drawFlag))
      (after 0x00E0 { State.reset with disp := clearDisp.setCell 3 4 true }) = (true, true) := by decide

/-- T77: glyph 1 at (62, 31) wraps on both edges. -/
theorem test_drw_wraps :
    (fun t : State =>
        ([(0, 31), (63, 0), (0, 0), (0, 1), (0, 2), (63, 3), (0, 3), (1, 3)].all (fun p => t.disp.cell p.1 p.2) &&
          ([(62, 31), (63, 31), (1, 31), (62, 0), (1, 0), (63, 1)].all fun p => !t.disp.cell p.1 p.2), t.getV 15, t.drawFlag))
      (after 0xD015 ((with01 62 31).setI 0x55)) = (true, 0, true) := by decide

/-- T85: the start coordinates wrap, and a lit pixel turned off is a collision. -/
theorem test_drw_collides :
    (fun t : State => (t.disp == clearDisp, t.getV 15))
      (after 0xD011 { (with01 64 32).setI 0x300 with mem := [(0x300, 0x80)], disp := clearDisp.setCell 0 0 true }) =
      (true, 1) := by decide

/-! ### Keypad and timers (T86 to T102) -/

/-- The reset state with the keys named held. -/
def holding (ks : List Nat) : State := { State.reset with keys := Vector.ofFn fun i => ks.contains i.val }

theorem test_skp :
    [after 0xE09E ((holding [5]).setV 0 5), after 0xE09E ((holding []).setV 0 5)].map State.pc = [0x204, 0x202] := by decide

theorem test_skp_out_of_range :
    (fun t : State => (t.fault, t.pc)) (after 0xE09E (with01 0x10 0)) = (some (.keyIndexOutOfRange 0x10), 0x202) := by decide

theorem test_sknp :
    [after 0xE0A1 ((holding [5]).setV 0 5), after 0xE0A1 ((holding []).setV 0 5)].map State.pc = [0x202, 0x204] := by decide

theorem test_sknp_out_of_range : (after 0xE0A1 (with01 0xFF 0)).fault = some (.keyIndexOutOfRange 0xFF) := by decide

theorem test_key_wait_stalls :
    (fun t : State => (t.pc, t.getV 3)) (after 0xF30A (State.reset.setV 3 0x77)) = (0x200, 0x77) := by decide

theorem test_key_wait_takes_least :
    (fun t : State => (t.pc, t.getV 3)) (after 0xF30A (holding [9, 5])) = (0x202, 5) := by decide

theorem test_delay_write : (after 0xF015 (with01 3 0)).dtS = 3 * Config.timerPrecision := by rfl

theorem test_sound_write : (after 0xF018 (with01 2 0)).stS = 2 * Config.timerPrecision := by rfl

theorem test_delay_read : (after 0xF107 { State.reset with dtS := 3 * Config.timerPrecision }).getV 1 = 3 := by
  show BitVec.ofNat 8 (3 * Config.timerPrecision / Config.timerPrecision) = 3
  rw [Nat.mul_div_cancel 3 (show 0 < Config.timerPrecision from Nat.succ_pos _)]
  rfl

/-- T102: a timer at 0 stays at 0. -/
theorem test_timer_clamped : (advanceTimers State.reset).dtS = 0 := Nat.zero_sub _

/-! ### Fetch, faults and the host (T112 to T123) -/

/-- T122: a fetch at 0x0FFF faults and leaves pc. -/
theorem test_fetch_fault :
    (match cycle { State.reset with pc := 0xFFF } with | .next t => (t.fault, t.pc) | _ => (none, 0)) =
      (some (.addressOutOfRange .fetch 0x1000), 0xFFF) := by decide

/-- T49: an illegal word faults after pc has advanced. -/
theorem test_illegal_word :
    (fun t : State => (t.fault, t.pc)) (after 0x8ABF State.reset) = (some (.unknownInstruction 0x8ABF), 0x202) := by decide

/-- T123: an odd pc is legal. -/
theorem test_odd_pc :
    (match cycle { State.reset with pc := 0x203, mem := [(0x203, 0x61), (0x204, 0x07)] } with
      | .next t => (t.getV 1, t.pc) | _ => (0, 0)) = (7, 0x205) := by decide

/-- T108 to T111: the budgets 11, 0, 16, 16. -/
theorem test_budget :
    [(700, 60), (59, 60), (1000, 60), (500, 30)].map
        (fun p => State.budget { State.reset with cfgClock := p.1, cfgFps := p.2 }) = [11, 0, 16, 16] := by decide

theorem test_set_frame_rate :
    [setFrameRate 0 State.reset, setFrameRate 30 State.reset].map (fun t => (t.cfgFps, t.fault)) =
      [(60, some (.configurationError .frameRate 0)), (30, none)] := by decide

theorem test_load_program :
    (match loadProgram [0x12, 0x00, 0xAB, 0xCD] State.reset with
      | .next t => ([0x200, 0x201, 0x202, 0x203, 0x050].map t.readByte, t.pc) | _ => ([], 0)) =
      ([0x12, 0x00, 0xAB, 0xCD, 0xF0], 0x200) := by decide

/-- From reset the queued load is the first step, and then the first cycle of the first frame runs the image. -/
theorem test_session :
    (match Host.Core.run Sys2Proof.core 2 { State.reset with hostOps := [.loadProgram [0x6A, 0x2F]] } with
      | .next t => (State.getV t 0xA, State.frameLeft t) | _ => (0, 0)) = (0x2F, 10) := by decide

/-- The model's step runs a placed word as the first instruction after reset. -/
theorem test_with_fetch_word :
    (match step (State.reset.withFetchWord 16 0x6A2F) with | .next t => (t.getV 0xA, t.pc, t.fault) | _ => (0, 0, none)) =
      (0x2F, 0x202, none) := by decide

/-! ### Witnesses: for each statement with hypotheses, and each of its clauses, states and operands that meet them -/

theorem reset_canonical : MemCanonical State.reset := rfl

/-- Timers at 0 are in range, whatever P is. -/
theorem reset_timers : TimersInRange State.reset := ⟨Nat.zero_le _, Nat.zero_le _⟩

theorem witness_EncodeOfDecodeIsTheWord : decodeWord 0x82F6 = some (.shr 2 0xF) := by decide

theorem witness_AddSetsCarry : (0xE : RegIdx) ≠ 0xF ∧ (0x0 : RegIdx) ≠ 0xF := by decide

theorem witness_SubtractSetsNoBorrow : (0x0 : RegIdx) ≠ 0xF ∧ (0xE : RegIdx) ≠ 0xF := by decide

theorem witness_ShiftsAreInPlaceAndSetBitShiftedOut : (0xE : RegIdx) ≠ 0xF := by decide

/-- Both disjuncts: x is VF, and only y is VF. -/
theorem witness_VfAliasFollowsTheParameter :
    ((0xF : RegIdx) = 0xF ∨ (0x1 : RegIdx) = 0xF) ∧ ((0x1 : RegIdx) = 0xF ∨ (0xF : RegIdx) = 0xF) := by decide

/-- The last free slot. -/
theorem witness_CallSavesReturnAddress : ({ State.reset with sp := 47 } : State).sp.val < 48 := by decide

/-- The first slot, and a full stack. -/
theorem witness_ReturnTakesNewestAddress :
    0 < ({ State.reset with sp := 1 } : State).sp.val ∧ 0 < ({ State.reset with sp := 48 } : State).sp.val := by decide

theorem witness_StackFaultsWriteOnlyTheLatch :
    State.reset.sp.val = 0 ∧ ({ State.reset with sp := 48 } : State).sp.val = 48 := by decide

/-- The last address FX33 may use. -/
theorem witness_BcdStoresThreeDigits :
    MemCanonical (State.reset.setI 0xFFD) ∧ (State.reset.setI 0xFFD).I.toNat + 2 ≤ 0xFFF := by
  refine ⟨reset_canonical, ?_⟩
  decide

/-- All sixteen registers up to the last byte, and V0 alone at the last byte. -/
theorem witness_StoreRegistersInclusive :
    MemCanonical (State.reset.setI 0xFF0) ∧ (State.reset.setI 0xFF0).I.toNat + (0xF : RegIdx).toNat ≤ 0xFFF ∧
      (State.reset.setI 0xFFF).I.toNat + (0x0 : RegIdx).toNat ≤ 0xFFF := by
  refine ⟨reset_canonical, ?_⟩
  decide

theorem witness_LoadRegistersInclusive :
    (State.reset.setI 0xFF0).I.toNat + (0xF : RegIdx).toNat ≤ 0xFFF ∧
      (State.reset.setI 0xFFF).I.toNat + (0x0 : RegIdx).toNat ≤ 0xFFF := by decide

/-- Each clause one address past the end: a draw of 15 rows, FX33, FX55 and FX65, and the fetch. -/
theorem witness_OutOfRangeAccessWritesOnlyTheLatch :
    (0 < (0xF : Nibble).toNat ∧ 0xFFF < (State.reset.setI 0xFF2).I.toNat + (0xF : Nibble).toNat - 1) ∧
      0xFFF < (State.reset.setI 0xFFE).I.toNat + 2 ∧
      0xFFF < (State.reset.setI 0xFF1).I.toNat + (0xF : RegIdx).toNat ∧
      (State.reset.setPc 0xFFF).fault = none ∧ 0xFFF < (State.reset.setPc 0xFFF).pc.toNat + 1 := by decide

theorem witness_StoreThenLoadRestoresRegisters :
    MemCanonical (State.reset.setI 0xFF0) ∧ (State.reset.setI 0xFF0).I.toNat + (0xF : RegIdx).toNat ≤ 0xFFF :=
  ⟨reset_canonical, by decide⟩

theorem witness_StoreIsSeenByTheNextFetch :
    MemCanonical (State.reset.setI 0xFFE) ∧ (State.reset.setI 0xFFE).fault = none ∧
      (State.reset.setI 0xFFE).I.toNat + 1 ≤ 0xFFF :=
  ⟨reset_canonical, by decide, by decide⟩

/-- No row at all at an address past memory, and fifteen rows that end on its last byte. -/
theorem witness_DrawIsExclusiveOrWithWrap :
    (0xE : RegIdx) ≠ 0xF ∧ SpriteInMemory (State.reset.setI 0xFFFF) (0x0 : Nibble).toNat ∧
      SpriteInMemory (State.reset.setI 0xFF1) (0xF : Nibble).toNat :=
  ⟨by decide, .inl rfl, .inr (by decide)⟩

theorem witness_DrawTwiceRestoresDisplay :
    (0x0 : RegIdx) ≠ 0xF ∧ (0xE : RegIdx) ≠ 0xF ∧ SpriteInMemory (State.reset.setI 0xFF1) (0xF : Nibble).toNat :=
  ⟨by decide, by decide, .inr (by decide)⟩

theorem witness_DrawWithVfCoordinateFollowsTheParameter :
    ((0xF : RegIdx) = 0xF ∨ (0x0 : RegIdx) = 0xF) ∧ ((0x0 : RegIdx) = 0xF ∨ (0xF : RegIdx) = 0xF) ∧
      SpriteInMemory (State.reset.setI 0xFF1) (0xF : Nibble).toNat :=
  ⟨by decide, by decide, .inr (by decide)⟩

/-- The last key, held and not held, and the first value that is no key. -/
theorem witness_KeySkipsTestTheSelectedKey :
    (((holding [15]).setV 0 15).getV 0).toNat ≤ 0x0F ∧ (holding [15]).keys[15] = true ∧ (holding []).keys[15] = false ∧
      ((with01 16 0).getV 0).toNat > 0x0F := by decide

/-- The least key is key 0; key 15 when it alone is held; and no key at all. -/
theorem witness_KeyWaitTakesLeastHeldKeyOrRewinds :
    ((holding [0, 9]).keys[(0 : Fin 16)] = true ∧ ∀ j : Fin 16, j < 0 → (holding [0, 9]).keys[j] = false) ∧
      ((holding [15]).keys[(15 : Fin 16)] = true ∧ ∀ j : Fin 16, j < 15 → (holding [15]).keys[j] = false) ∧
      ∀ k : Fin 16, (holding []).keys[k] = false := by decide

/-- FX0A at the last address a fetch may use. -/
theorem witness_KeyWaitWithoutKeyChangesNothing :
    let s : State := { State.reset with pc := 0xFFE, mem := [(0xFFE, 0xF3), (0xFFF, 0x0A)] }
    s.fault = none ∧ s.pc.toNat ≤ 0xFFE ∧ (∀ k : Fin 16, s.keys[k] = false) ∧
      wordOfBytes (s.readByte s.pc.toNat) (s.readByte (s.pc.toNat + 1)) = wordXK 0xF 3 0x0A := by decide

/-- The largest value a timer may hold. -/
theorem witness_DelayTimerReadIsLogicalValue :
    TimersInRange { State.reset with dtS := 255 * Config.timerPrecision } :=
  ⟨Nat.le_refl _, Nat.zero_le _⟩

theorem witness_TimerAdvanceIsClampedDecrement : 1 ≤ ({ State.reset with cfgFps := 1 } : State).cfgFps := by decide

theorem witness_PrecisionIsUnobservableWhenRateDivides60 :
    let s : State := { State.reset with dtS := Config.timerPrecision * 255, stS := Config.timerPrecision * 1 }
    s.cfgFps ∣ 60 ∧ 255 ≤ 255 ∧ 1 ≤ 255 ∧ s.dtS = Config.timerPrecision * 255 ∧ s.stS = Config.timerPrecision * 1 :=
  ⟨⟨1, rfl⟩, by decide, by decide, rfl, rfl⟩

theorem witness_EveryInstructionAnswersAndFaultsPrecisely : State.reset.fault = none := by decide

/-- An instruction's answer is a next state whose latch holds the value. -/
def raises (i : Instr) (s : State) (f : FaultValue) : Bool :=
  s.fault.isNone && match exec i s with | .next t => t.fault == some f | _ => false

/-- Each of the eight raises what it may. -/
theorem witness_OnlyListedInstructionsRaise :
    raises .ret State.reset .stackUnderflow ∧ raises (.call 0x300) { State.reset with sp := 48 } .stackOverflow ∧
      raises (.drw 0 0 1) (State.reset.setI 0x1000) (.addressOutOfRange .read 0x1000) ∧
      raises (.ldBcd 0) (State.reset.setI 0xFFE) (.addressOutOfRange .write 0x1000) ∧
      raises (.storeRegs 1) (State.reset.setI 0xFFF) (.addressOutOfRange .write 0x1000) ∧
      raises (.loadRegs 1) (State.reset.setI 0xFFF) (.addressOutOfRange .read 0x1000) ∧
      raises (.skp 0) (with01 0x10 0) (.keyIndexOutOfRange 0x10) ∧
      raises (.sknp 0) (with01 0x10 0) (.keyIndexOutOfRange 0x10) := by decide

theorem witness_AluFamilyStaysInItsFrame :
    familyOf (.addReg 0 1) = .alu ∧ ∃ t, exec (.addReg 0 1) State.reset = .next t := ⟨rfl, _, rfl⟩

theorem witness_ControlAndSkipsStayInTheirFrame :
    (familyOf (.call 0x300) = .control ∧ ∃ t, exec (.call 0x300) State.reset = .next t) ∧
      familyOf (.sneReg 0 1) = .skips ∧ ∃ t, exec (.sneReg 0 1) State.reset = .next t :=
  ⟨⟨rfl, _, rfl⟩, rfl, _, rfl⟩

theorem witness_IndexAndMemoryStayInTheirFrame :
    familyOf (.storeRegs 2) = .indexMemory ∧ ∃ t, exec (.storeRegs 2) State.reset = .next t := ⟨rfl, _, rfl⟩

theorem witness_DevicesFamiliesStayInTheirFrame :
    (familyOf (.rnd 0 1) = .random ∧ ∃ t, exec (.rnd 0 1) State.reset = .next t) ∧
      (familyOf .cls = .display ∧ ∃ t, exec .cls State.reset = .next t) ∧
      (familyOf (.ldVxKey 0) = .keypad ∧ ∃ t, exec (.ldVxKey 0) State.reset = .next t) ∧
      familyOf (.ldDtVx 0) = .timers ∧ ∃ t, exec (.ldDtVx 0) State.reset = .next t :=
  ⟨⟨rfl, _, rfl⟩, ⟨rfl, _, rfl⟩, ⟨rfl, _, rfl⟩, rfl, _, rfl⟩

/-- A loaded state with 6A2F, at the last address a fetch may use. -/
def loaded6A2F : State :=
  { State.reset with pc := 0xFFE, mem := [(0xFFE, 0x6A), (0xFFF, 0x2F)], loaded := true }

/-- The loaded state with host operations queued. -/
def queued (ops : List HostOp) : State := { loaded6A2F with hostOps := ops }

/-- Inside a frame; at the start of a queued one and of a free-running one (700 / 60 = 10 + 1); and under
executeOneCycle. -/
theorem witness_StepRunsTheDecodedInstruction :
    loaded6A2F.fault = none ∧ loaded6A2F.pc.toNat ≤ 0xFFE ∧
      decode [loaded6A2F.readByte loaded6A2F.pc.toNat, loaded6A2F.readByte (loaded6A2F.pc.toNat + 1)] =
        .ok (.ldImm 0xA 0x2F, []) ∧
      (1 ≤ loaded6A2F.cfgFps ∧ loaded6A2F.frameLeft = 0 ∧ loaded6A2F.loaded = true ∧
        loaded6A2F.cfgClock / loaded6A2F.cfgFps = 10 + 1) ∧
      (∃ t, exec (.ldImm 0xA 0x2F) { loaded6A2F with pc := loaded6A2F.pc + 2, frameLeft := 3 + 1 } = .next t) ∧
      ((queued [.executeFrame, .shouldBeep]).hostOps = .executeFrame :: [.shouldBeep] ∧
        ∃ t, exec (.ldImm 0xA 0x2F) { queued [.shouldBeep] with pc := loaded6A2F.pc + 2 } = .next t) ∧
      (loaded6A2F.hostOps = [] ∧ ∃ t, exec (.ldImm 0xA 0x2F) { loaded6A2F with pc := loaded6A2F.pc + 2 } = .next t) ∧
      (queued [.executeOneCycle]).hostOps = .executeOneCycle :: [] :=
  ⟨by decide, by decide, by decide, by decide, ⟨_, rfl⟩, ⟨rfl, _, rfl⟩, ⟨rfl, _, rfl⟩, rfl⟩

/-- The word 0x8ABF of S11. -/
theorem witness_IllegalWordRaisesUnknownInstruction :
    let s : State := { State.reset with pc := 0xFFE, mem := [(0xFFE, 0x8A), (0xFFF, 0xBF)] }
    s.fault = none ∧ s.pc.toNat ≤ 0xFFE ∧
      (0x8ABF : Word).toNat = (s.readByte s.pc.toNat).toNat * 256 + (s.readByte (s.pc.toNat + 1)).toNat ∧
      wellFormedWord 0x8ABF = false := by decide

/-- A halted core, with the host's reset next and with another frame next, and a step from each. -/
theorem witness_HaltedCoreMovesNoMore :
    ((queued [.reset]).raise .stackUnderflow).fault = some .stackUnderflow ∧
      (∃ t, step ((queued [.reset]).raise .stackUnderflow) = .next t) ∧
      ((queued [.executeFrame]).raise .stackUnderflow).fault = some .stackUnderflow ∧
      ∃ t, step ((queued [.executeFrame]).raise .stackUnderflow) = .next t :=
  ⟨rfl, ⟨_, rfl⟩, rfl, _, rfl⟩

/-- R220: of a reset and a frame queued on a halted core, only the reset clears the latch. -/
theorem test_latch_sticky :
    [HostOp.reset, .executeFrame].map (fun op => match step ((queued [op]).raise .stackUnderflow) with
      | .next t => t.fault | _ => none) = [none, some .stackUnderflow] := by decide

theorem witness_FrameRunsItsBudgetThenAdvancesOnce : State.reset.fault = none ∧ 1 ≤ State.reset.cfgFps := by decide

/-- A frame of eleven cycles and one with an empty budget, queued and free-running; and a queued one on a halted core
that is not loaded. -/
theorem witness_StepsOfAFrameRefineExecuteFrame :
    (loaded6A2F.frameLeft = 0 ∧ loaded6A2F.hostOps = [] ∧ loaded6A2F.loaded = true ∧
      loaded6A2F.cfgClock / loaded6A2F.cfgFps = 11) ∧
      ({ loaded6A2F with cfgClock := 59 } : State).cfgClock / ({ loaded6A2F with cfgClock := 59 } : State).cfgFps = 0 ∧
      ((queued [.executeFrame, .shouldBeep]).hostOps = .executeFrame :: [.shouldBeep] ∧
        (queued [.executeFrame, .shouldBeep]).loaded = true) ∧
      (State.reset.raise .stackUnderflow).fault ≠ none := by
  decide

theorem witness_FreeRunningMachineNeverStops : ConfigPositive loaded6A2F ∧ loaded6A2F.hostOps = [] :=
  ⟨⟨by decide, by decide⟩, rfl⟩

theorem witness_ConfigurationRefusesZero :
    State.reset.fault = none ∧ State.reset.frameLeft = 0 ∧ (queued [.setFrameRate 0]).hostOps = .setFrameRate 0 :: [] ∧
      (queued [.setClockSpeed 1]).hostOps = .setClockSpeed 1 :: [] := by decide

/-- The longest image that fits, and the shortest that does not. -/
theorem witness_LoadCopiesImageOrTouchesNothing :
    MemCanonical State.reset ∧ State.reset.fault = none ∧ State.reset.loaded = false ∧ State.reset.frameLeft = 0 ∧
      ({ State.reset with hostOps := [.loadProgram [0x12]] } : State).hostOps = .loadProgram [0x12] :: [] ∧
      (List.replicate 3584 (0xAB : Byte)).length ≤ 3584 ∧ 3584 < (List.replicate 3585 (0xAB : Byte)).length :=
  ⟨reset_canonical, rfl, rfl, rfl, rfl, List.length_replicate.le, List.length_replicate.ge⟩

theorem witness_OutOfContractMovesAreRefused :
    State.reset.fault = none ∧ State.reset.frameLeft = 0 ∧ State.reset.loaded = false ∧ loaded6A2F.loaded = true ∧
      loaded6A2F.fault = none ∧ loaded6A2F.frameLeft = 0 ∧
      ({ loaded6A2F with hostOps := [.loadProgram []] } : State).hostOps = [.loadProgram []] ∧
      ({ State.reset with hostOps := [.executeFrame] } : State).hostOps = [.executeFrame] ∧
      ({ State.reset with hostOps := [.executeOneCycle] } : State).hostOps = [.executeOneCycle] := by decide

theorem witness_ObserversAnswerTheHost :
    loaded6A2F.frameLeft = 0 ∧ (queued [.writeKeys (holding [15]).keys]).hostOps = .writeKeys (holding [15]).keys :: [] ∧
      (queued [.consumeDrawFlag]).hostOps = .consumeDrawFlag :: [] ∧ (queued [.getDisplay]).hostOps = .getDisplay :: [] ∧
      (queued [.shouldBeep]).hostOps = .shouldBeep :: [] ∧ (queued [.readFault]).hostOps = .readFault :: [] := by decide

/-- A halted core with the host's reset next. -/
theorem witness_ResetHasTheValuesTheSpecFixes :
    ((queued [.reset]).raise .stackUnderflow).frameLeft = 0 ∧
      ((queued [.reset]).raise .stackUnderflow).hostOps = .reset :: [] := by decide

theorem witness_StepKeepsMemoryCanonical : MemCanonical loaded6A2F ∧ ∃ t, step loaded6A2F = .next t :=
  ⟨rfl, _, rfl⟩

theorem witness_StepKeepsRangesOfTheSpec :
    (TimersInRange loaded6A2F ∧ ConfigPositive loaded6A2F ∧ LatchPossible loaded6A2F ∧ FrameConsistent loaded6A2F) ∧
      ∃ t, step loaded6A2F = .next t :=
  ⟨⟨reset_timers, ⟨by decide, by decide⟩, nofun, fun h => absurd rfl h⟩, _, rfl⟩

/-- The highest pc a program reaches. -/
theorem witness_StepKeepsPcBounded :
    PcBounded { loaded6A2F with pc := 0x10FE } ∧ ∃ t, step { loaded6A2F with pc := 0x10FE } = .next t :=
  ⟨⟨by decide, fun _ h => absurd h (Nat.not_lt_zero _)⟩, _, rfl⟩

end Sys2Proof.Tests
end

section
/-!
SUPPORT. The frame rule of each operation on the state: what may change by it (10_state.md rule R38). Each rule
extends a frame `SameBut` by one more operation, so the frame of an instruction is the chain of its operations. That
the frame names the part written is read off the access table (`writesParts`) unless it is given.
-/
namespace Sys2Proof.Machine

variable {regs : RegIdx → Prop} {bytes : Nat → Prop} {parts : List Part} {s t u : State}

theorem PartKept.trans {q : Part} (h : PartKept s t q) (h' : PartKept t u q) : PartKept s u q := by
  cases q with
  | display => exact ⟨h'.1.trans h.1, h'.2.trans h.2⟩
  | _ => exact Eq.trans h' h

/-- A part the frame does not name is kept. -/
theorem SameBut.part (h : SameBut regs bytes parts s t) {q : Part} (hq : q ∉ parts) : PartKept s t q :=
  have ⟨_, _, hparts, _⟩ := h
  hparts q hq

theorem SameBut.trans (h : SameBut regs bytes parts s t) (h' : SameBut regs bytes parts t u) :
    SameBut regs bytes parts s u := by
  obtain ⟨hregs, hbytes, hparts, hhost⟩ := h
  obtain ⟨hregs', hbytes', hparts', hhost'⟩ := h'
  exact ⟨fun i hi => (hregs' i hi).trans (hregs i hi), fun a ha => (hbytes' a ha).trans (hbytes a ha),
    fun q hq => (hparts q hq).trans (hparts' q hq), by simp_all [HostSideKept]⟩

/-- An operation that touches neither registers, nor memory, nor the host's side stays in any frame that names the
parts it writes. -/
theorem SameBut.of_parts (hV : u.V = t.V) (hmem : u.mem = t.mem) (hhost : HostSideKept t u)
    (hparts : ∀ q, q ∉ parts → PartKept t u q) : SameBut regs bytes parts t u :=
  ⟨fun _ _ => by simp [State.getV, hV], fun _ _ => by simp [State.readByte, hmem], hparts, hhost⟩

theorem SameBut.refl (regs : RegIdx → Prop) (bytes : Nat → Prop) (parts : List Part) (s : State) :
    SameBut regs bytes parts s s :=
  .of_parts rfl rfl (by simp [HostSideKept]) fun q _ => by cases q <;> simp [PartKept]

/-! ### Registers and memory -/

theorem SameBut.setRegs (h : SameBut regs bytes parts s t) {V : Vector Byte 16}
    (hV : ∀ i, ¬ regs i → (t.setRegs V).getV i = t.getV i) : SameBut regs bytes parts s (t.setRegs V) :=
  h.trans ⟨hV, fun _ _ => rfl, fun q _ => by cases q <;> simp [PartKept], by simp [HostSideKept]⟩

theorem SameBut.setV (h : SameBut regs bytes parts s t) {i : RegIdx} (hi : regs i) (v : Byte) :
    SameBut regs bytes parts s (t.setV i v) :=
  h.setRegs fun _ hj => State.getV_setV_ne t (by rintro rfl; exact hj hi) v

theorem SameBut.aluWithFlag (h : SameBut regs bytes parts s t) {x : RegIdx} (hx : regs x)
    (hf : regs Config.flagReg) (op : FlagOp) (y : RegIdx) : SameBut regs bytes parts s (t.aluWithFlag op x y) := by
  rw [State.aluWithFlag_eq]
  exact h.setRegs fun i hi => State.getV_aluWithFlag_ne t op (fun e => hi (e ▸ hx)) (fun e => hi (e ▸ hf))

theorem SameBut.setMem (h : SameBut regs bytes parts s t) {m : List Host.Cell}
    (hm : ∀ a, ¬ bytes a → Mem.read m a = t.readByte a) : SameBut regs bytes parts s (t.setMem m) :=
  h.trans ⟨fun _ _ => rfl, hm, fun q _ => by cases q <;> simp [PartKept], by simp [HostSideKept]⟩

theorem SameBut.writeBytes {a n : Nat} (h : SameBut regs (bytesFrom a n) parts s t) {bs : List Byte}
    (hlen : bs.length = n) : SameBut regs (bytesFrom a n) parts s (t.setMem (Mem.writeBytes t.mem a bs)) :=
  h.setMem fun b hb => Mem.read_writeBytes_outside t.mem a bs (by unfold bytesFrom at hb; omega)

/-! ### The other parts -/

theorem SameBut.setI (h : SameBut regs bytes parts s t) (v : Word) (hI : .addrReg ∈ parts := by simp [writesParts]) :
    SameBut regs bytes parts s (t.setI v) :=
  h.trans <| .of_parts rfl rfl (by simp [HostSideKept]) fun q hq => by cases q <;> simp_all [PartKept]

theorem SameBut.setPc (h : SameBut regs bytes parts s t) (v : Word) (hpc : .pc ∈ parts := by simp [writesParts]) :
    SameBut regs bytes parts s (t.setPc v) :=
  h.trans <| .of_parts rfl rfl (by simp [HostSideKept]) fun q hq => by cases q <;> simp_all [PartKept]

theorem SameBut.skipIf (h : SameBut regs bytes parts s t) (c : Bool) (hpc : .pc ∈ parts := by simp [writesParts]) :
    SameBut regs bytes parts s (t.skipIf c) := by
  cases c with
  | false => exact h
  | true => exact h.setPc _ hpc

theorem SameBut.setDt (h : SameBut regs bytes parts s t) (v : Nat) (hdt : .delay ∈ parts := by simp [writesParts]) :
    SameBut regs bytes parts s (t.setDt v) :=
  h.trans <| .of_parts rfl rfl (by simp [HostSideKept]) fun q hq => by cases q <;> simp_all [PartKept]

theorem SameBut.setSt (h : SameBut regs bytes parts s t) (v : Nat) (hst : .sound ∈ parts := by simp [writesParts]) :
    SameBut regs bytes parts s (t.setSt v) :=
  h.trans <| .of_parts rfl rfl (by simp [HostSideKept]) fun q hq => by cases q <;> simp_all [PartKept]

theorem SameBut.showDisp (h : SameBut regs bytes parts s t) (d : Disp)
    (hd : .display ∈ parts := by simp [writesParts]) :
    SameBut regs bytes parts s (t.showDisp d) :=
  h.trans <| .of_parts rfl rfl (by simp [HostSideKept]) fun q hq => by cases q <;> simp_all [PartKept]

theorem SameBut.drawSprite (h : SameBut regs bytes parts s t) (hf : regs Config.flagReg) (xy : Byte × Byte) (n : Nat)
    (hd : .display ∈ parts := by simp [writesParts]) : SameBut regs bytes parts s (t.drawSprite xy n) := by
  rw [State.drawSprite_eq]
  exact (h.setV hf _).showDisp _ hd

theorem SameBut.nextDraw (h : SameBut regs bytes parts s t) (hd : .draws ∈ parts := by simp [writesParts]) :
    SameBut regs bytes parts s t.nextDraw :=
  h.trans <| .of_parts rfl rfl (by simp [HostSideKept]) fun q hq => by cases q <;> simp_all [PartKept]

theorem SameBut.raise (h : SameBut regs bytes parts s t) (f : FaultValue)
    (hl : .latch ∈ parts := by simp [writesParts]) :
    SameBut regs bytes parts s (t.raise f) :=
  h.trans <| .of_parts rfl rfl (by simp [HostSideKept]) fun q hq => by cases q <;> simp_all [PartKept]

theorem SameBut.pushPc (h : SameBut regs bytes parts s t) (hfree : t.sp.val < Config.stackDepth)
    (hslots : .slots ∈ parts := by simp [writesParts]) (hsp : .sp ∈ parts := by simp [writesParts]) :
    SameBut regs bytes parts s (t.pushPc hfree) :=
  h.trans <| .of_parts rfl rfl (by simp [HostSideKept]) fun q hq => by cases q <;> simp_all [PartKept]

theorem SameBut.popPc (h : SameBut regs bytes parts s t) (hlive : 0 < t.sp.val)
    (hsp : .sp ∈ parts := by simp [writesParts]) (hpc : .pc ∈ parts := by simp [writesParts]) :
    SameBut regs bytes parts s (t.popPc hlive) :=
  h.trans <| .of_parts rfl rfl (by simp [HostSideKept]) fun q hq => by cases q <;> simp_all [PartKept]

end Sys2Proof.Machine
end

section
/-!
SUPPORT. What each instruction answers: a next state within its frame, family by family (10_state.md rule R38). The
guarded operations come first: each goes on, or takes a fault and does nothing else.
-/
namespace Sys2Proof.Machine

variable {s : State} {P : State → Prop}

/-- A result answers one state only: what is shown of an answer holds of each. -/
theorem holds_of_answers {r : Result} {t : State} (h : ∃ u, r = .next u ∧ P u) (hr : r = .next t) : P t := by
  obtain ⟨u, hu, hP⟩ := h
  cases hu.symm.trans hr
  exact hP

/-- A guarded access answers with `P` when both what follows it and taking a fault do. -/
theorem checkAddr_answers {kind : AccessKind} {a : Nat} {k : State → Result} (hin : ∃ t, k s = .next t ∧ P t)
    (hout : P (s.raise (.addressOutOfRange kind a))) : ∃ t, checkAddr kind a s k = .next t ∧ P t := by
  obtain ⟨-, hk⟩ | ⟨-, hk⟩ := checkAddr_cases kind a s k
  · rwa [hk]
  · exact ⟨_, hk, hout⟩

/-- A key instruction answers with `P` when both what follows the key's read and taking a fault do. -/
theorem withKey_answers {x : RegIdx} {k : Bool → Result} (hin : ∀ held, ∃ t, k held = .next t ∧ P t)
    (hout : P (s.raise (.keyIndexOutOfRange (s.getV x)))) : ∃ t, withKey x s k = .next t ∧ P t := by
  obtain ⟨_, hk⟩ | ⟨-, hk⟩ := withKey_cases x s k
  · rw [hk]; exact hin _
  · exact ⟨_, hk, hout⟩

theorem execRet_answers (hpop : ∀ h, P (s.popPc h)) (hraise : P (s.raise .stackUnderflow)) :
    ∃ t, execRet s = .next t ∧ P t := by
  unfold execRet
  split
  case isTrue h => exact ⟨_, rfl, hpop h⟩
  case isFalse => exact ⟨_, rfl, hraise⟩

theorem execCall_answers {nnn : Addr12} (hpush : ∀ h, P ((s.pushPc h).setPc (zextAddr nnn)))
    (hraise : P (s.raise .stackOverflow)) : ∃ t, execCall nnn s = .next t ∧ P t := by
  unfold execCall
  split
  case isTrue h => exact ⟨_, rfl, hpush h⟩
  case isFalse => exact ⟨_, rfl, hraise⟩

theorem execLdVxKey_answers {x : RegIdx} (hkey : ∀ k, P (s.setV x (BitVec.ofNat 8 k))) (hwait : P s.rewindPc) :
    ∃ t, execLdVxKey x s = .next t ∧ P t := by
  unfold execLdVxKey
  split
  · exact ⟨_, rfl, hkey _⟩
  · exact ⟨_, rfl, hwait⟩

theorem execLdBcd_answers {x : RegIdx}
    (hstore : P (s.setMem (Mem.writeBytes s.mem (s.addrI 0) (bcdDigits (s.getV x)))))
    (hraise : P (s.raise (.addressOutOfRange .write (s.addrI 2)))) : ∃ t, execLdBcd x s = .next t ∧ P t :=
  checkAddr_answers ⟨_, rfl, hstore⟩ hraise

theorem execStoreRegs_answers {x : RegIdx}
    (hstore : P (s.setMem (Mem.writeBytes s.mem (s.addrI 0) (s.regBlock x))))
    (hraise : P (s.raise (.addressOutOfRange .write (s.addrI x.toNat)))) : ∃ t, execStoreRegs x s = .next t ∧ P t :=
  checkAddr_answers ⟨_, rfl, hstore⟩ hraise

theorem execLoadRegs_answers {x : RegIdx} (hload : P (s.setRegs (s.regsFromMem x)))
    (hraise : P (s.raise (.addressOutOfRange .read (s.addrI x.toNat)))) : ∃ t, execLoadRegs x s = .next t ∧ P t :=
  checkAddr_answers ⟨_, rfl, hload⟩ hraise

theorem execSkp_answers {x : RegIdx} (hskip : ∀ held, P (s.skipIf held))
    (hraise : P (s.raise (.keyIndexOutOfRange (s.getV x)))) : ∃ t, execSkp x s = .next t ∧ P t :=
  withKey_answers (fun held => ⟨_, rfl, hskip held⟩) hraise

theorem execSknp_answers {x : RegIdx} (hskip : ∀ held, P (s.skipIf held))
    (hraise : P (s.raise (.keyIndexOutOfRange (s.getV x)))) : ∃ t, execSknp x s = .next t ∧ P t :=
  withKey_answers (fun held => ⟨_, rfl, hskip (!held)⟩) hraise

theorem execDrw_answers {x y : RegIdx} {n : Nibble} (hdraw : ∀ xy n, P (s.drawSprite xy n))
    (hraise : ∀ a, P (s.raise (.addressOutOfRange .read a))) : ∃ t, execDrw x y n s = .next t ∧ P t := by
  unfold execDrw
  split
  · exact ⟨_, rfl, hdraw _ 0⟩
  · exact checkAddr_answers ⟨_, rfl, hdraw _ _⟩ (hraise _)

/-! ### Frames -/

/-- The frame of an instruction holds before it does anything. -/
theorem InFrame.refl (i : Instr) (s : State) : InFrame i s s := SameBut.refl _ _ _ s

theorem exec_alu_inFrame {i : Instr} (hi : familyOf i = .alu) (s : State) :
    ∃ t, exec i s = .next t ∧ InFrame i s t := by
  have start := InFrame.refl i s
  cases i with
  | ldImm x nn => exact ⟨_, rfl, start.setV rfl _⟩
  | addImm x nn => exact ⟨_, rfl, start.setV rfl _⟩
  | ldReg x y => exact ⟨_, rfl, start.setV rfl _⟩
  | orReg x y => exact ⟨_, rfl, start.setV rfl _⟩
  | andReg x y => exact ⟨_, rfl, start.setV rfl _⟩
  | xorReg x y => exact ⟨_, rfl, start.setV rfl _⟩
  | addReg x y => exact ⟨_, rfl, start.aluWithFlag (.inl rfl) (.inr rfl) .add y⟩
  | sub x y => exact ⟨_, rfl, start.aluWithFlag (.inl rfl) (.inr rfl) .sub y⟩
  | shr x y => exact ⟨_, rfl, start.aluWithFlag (.inl rfl) (.inr rfl) .shr x⟩
  | subn x y => exact ⟨_, rfl, start.aluWithFlag (.inl rfl) (.inr rfl) .subn y⟩
  | shl x y => exact ⟨_, rfl, start.aluWithFlag (.inl rfl) (.inr rfl) .shl x⟩
  | _ => simp [familyOf] at hi

theorem exec_control_inFrame {i : Instr} (hi : familyOf i = .control) (s : State) :
    ∃ t, exec i s = .next t ∧ InFrame i s t := by
  have start := InFrame.refl i s
  cases i with
  | ret => exact execRet_answers (fun h => start.popPc h) (start.raise _)
  | jp nnn => exact ⟨_, rfl, start.setPc _⟩
  | call nnn => exact execCall_answers (fun h => (start.pushPc h).setPc _) (start.raise _)
  | jpV0 nnn => exact ⟨_, rfl, start.setPc _⟩
  | _ => simp [familyOf] at hi

theorem exec_skips_inFrame {i : Instr} (hi : familyOf i = .skips) (s : State) :
    ∃ t, exec i s = .next t ∧ InFrame i s t := by
  have start := InFrame.refl i s
  cases i with
  | seImm x nn => exact ⟨_, rfl, start.skipIf _⟩
  | sneImm x nn => exact ⟨_, rfl, start.skipIf _⟩
  | seReg x y => exact ⟨_, rfl, start.skipIf _⟩
  | sneReg x y => exact ⟨_, rfl, start.skipIf _⟩
  | _ => simp [familyOf] at hi

theorem exec_indexMemory_inFrame {i : Instr} (hi : familyOf i = .indexMemory) (s : State) :
    ∃ t, exec i s = .next t ∧ InFrame i s t := by
  have start := InFrame.refl i s
  cases i with
  | ldI nnn => exact ⟨_, rfl, start.setI _⟩
  | addI x => exact ⟨_, rfl, start.setI _⟩
  | ldFont x => exact ⟨_, rfl, start.setI _⟩
  | ldBcd x => exact execLdBcd_answers (start.writeBytes (bcdDigits_length _)) (start.raise _)
  | storeRegs x =>
    exact execStoreRegs_answers (start.writeBytes (State.regBlock_length s x)) (start.raise _)
  | loadRegs x =>
    have hkept (i : RegIdx) (hi : ¬ i.toNat ≤ x.toNat) : (s.setRegs (s.regsFromMem x)).getV i = s.getV i :=
      (State.regsFromMem_get s x i).trans (if_neg hi)
    exact execLoadRegs_answers (start.setRegs hkept) (start.raise _)
  | _ => simp [familyOf] at hi

theorem exec_devices_inFrame {i : Instr}
    (hi : familyOf i = .random ∨ familyOf i = .display ∨ familyOf i = .keypad ∨ familyOf i = .timers) (s : State) :
    ∃ t, exec i s = .next t ∧ InFrame i s t := by
  have start := InFrame.refl i s
  cases i with
  | rnd x nn => exact ⟨_, rfl, start.nextDraw.setV rfl _⟩
  | cls => exact ⟨_, rfl, start.showDisp _⟩
  | drw x y n => exact execDrw_answers (fun _ _ => start.drawSprite rfl _ _) fun _ => start.raise _
  | skp x => exact execSkp_answers (fun _ => start.skipIf _) (start.raise _)
  | sknp x => exact execSknp_answers (fun _ => start.skipIf _) (start.raise _)
  | ldVxKey x => exact execLdVxKey_answers (fun _ => start.setV rfl _) (start.setPc _)
  | ldVxDt x => exact ⟨_, rfl, start.setV rfl _⟩
  | ldDtVx x => exact ⟨_, rfl, start.setDt _⟩
  | ldStVx x => exact ⟨_, rfl, start.setSt _⟩
  | _ => simp [familyOf] at hi

/-- Every instruction, in every state, answers a next state within its frame. -/
theorem exec_inFrame (i : Instr) (s : State) : ∃ t, exec i s = .next t ∧ InFrame i s t := by
  cases hi : familyOf i with
  | alu => exact exec_alu_inFrame hi s
  | control => exact exec_control_inFrame hi s
  | skips => exact exec_skips_inFrame hi s
  | indexMemory => exact exec_indexMemory_inFrame hi s
  | random => exact exec_devices_inFrame (.inl hi) s
  | display => exact exec_devices_inFrame (.inr (.inl hi)) s
  | keypad => exact exec_devices_inFrame (.inr (.inr (.inl hi))) s
  | timers => exact exec_devices_inFrame (.inr (.inr (.inr hi))) s

end Sys2Proof.Machine

open Sys2Proof Sys2Proof.Machine

/-- Settles O42: each ALU instruction is one write of V[x], or of V[x] and VF. -/
theorem aluFamilyStaysInItsFrame : Obligations.AluFamilyStaysInItsFrame :=
  fun _ s _ hi => holds_of_answers (exec_alu_inFrame hi s)

/-- Settles O43: jumps and skips write pc; CALL and RET also the stack, or only the latch. -/
theorem controlAndSkipsStayInTheirFrame : Obligations.ControlAndSkipsStayInTheirFrame :=
  fun _ s _ hi => holds_of_answers (hi.elim (exec_control_inFrame · s) (exec_skips_inFrame · s))

/-- Settles O44: the two stores write their run of bytes, the load its registers, the others I. -/
theorem indexAndMemoryStayInTheirFrame : Obligations.IndexAndMemoryStayInTheirFrame :=
  fun _ s _ hi => holds_of_answers (exec_indexMemory_inFrame hi s)

/-- Settles O45: each device instruction is a chain of writes its row of the access table names. -/
theorem devicesFamiliesStayInTheirFrame : Obligations.DevicesFamiliesStayInTheirFrame :=
  fun _ s _ hi => holds_of_answers (exec_devices_inFrame hi s)

end

section
/-!
SUPPORT. What one step can do, said once (48_frame_sequencer_and_host.md rules R190 to R203): the host's reset, another
operation between frames, or a cycle of a frame; and what a cycle can do to a property of the state.
-/
namespace Sys2Proof.Machine

variable {s t u : State} {P : State → Prop}

/-! ### The cycle -/

/-- A property of the state survives a cycle when it survives each thing a cycle can do: nothing, a fault at the fetch
or at the dispatch, or an instruction at an address the fetch may use. -/
theorem cycle_keeps (h : cycle s = .next t) (hs : P s) (hfetch : ∀ f, f ≠ .ioFailure → P (s.raise f))
    (hword : s.pc.toNat + 1 < Config.memSize → ∀ f, f ≠ .ioFailure → P (s.advancePc.raise f))
    (hexec : s.pc.toNat + 1 < Config.memSize → ∀ i, ∃ u, exec i s.advancePc = .next u ∧ P u) : P t := by
  obtain ⟨-, hc⟩ | ⟨-, -, hc⟩ | ⟨-, hpc, ⟨-, hc⟩ | ⟨i, -, hc⟩⟩ := cycle_cases s
  · exact holds_of_answers ⟨_, hc, hs⟩ h
  · exact holds_of_answers ⟨_, hc, hfetch _ nofun⟩ h
  · exact holds_of_answers ⟨_, hc, hword hpc _ nofun⟩ h
  · exact holds_of_answers (hexec hpc i) (hc ▸ h)

theorem cycle_of_fault {f : FaultValue} (hf : s.fault = some f) : cycle s = .next s := by
  simp [cycle, hf]

/-- A cycle leaves keys, configuration and the session alone. -/
theorem cycle_hostSideKept (h : cycle s = .next t) : HostSideKept s t :=
  cycle_keeps h (P := HostSideKept s) (by simp [HostSideKept]) (by simp [HostSideKept]) (by simp [HostSideKept])
    fun _ i => (exec_inFrame i s.advancePc).imp fun _ ⟨hx, _, _, _, hhost⟩ => ⟨hx, hhost⟩

/-! ### The end of a frame -/

/-- A frame ends with its count at 0 and a reply, and with a timer advance unless a fault is latched. -/
theorem endFrame_cases (s : State) :
    (∃ f, s.fault = some f ∧ endFrame s = { s with frameLeft := 0, reply := some (.fault f) }) ∨
      (s.fault = none ∧ endFrame s = { advanceTimers s with frameLeft := 0, reply := some .ok }) := by
  unfold endFrame
  split
  case h_1 f hf => exact .inl ⟨f, hf, rfl⟩
  case h_2 hf => exact .inr ⟨hf, rfl⟩

@[simp] theorem endFrame_fault (s : State) : (endFrame s).fault = s.fault := by
  obtain ⟨f, -, he⟩ | ⟨-, he⟩ := endFrame_cases s
  · rw [he]
  · rw [he]; rfl

@[simp] theorem endFrame_frameLeft (s : State) : (endFrame s).frameLeft = 0 := by
  obtain ⟨f, -, he⟩ | ⟨-, he⟩ := endFrame_cases s <;> rw [he]

/-- A property that does not read the session's count, reply and queue survives the end of a frame when it survives a
timer advance. -/
theorem endFrame_keeps (hsession : ∀ u n r ops, P u → P { u with frameLeft := n, reply := r, hostOps := ops })
    (hs : P s) (htimers : P (advanceTimers s)) : P (endFrame s) := by
  obtain ⟨f, -, he⟩ | ⟨-, he⟩ := endFrame_cases s
  · exact he ▸ hsession s _ _ s.hostOps hs
  · exact he ▸ hsession _ _ _ s.hostOps htimers

/-- After a cycle the frame ends, or goes on with no fault latched and cycles left to run. -/
theorem afterCycle_cases (left : Nat) (s : State) :
    afterCycle left s = endFrame s ∨ (s.fault = none ∧ left ≠ 0 ∧ afterCycle left s = { s with frameLeft := left }) := by
  unfold afterCycle
  split
  case isTrue => exact .inl rfl
  case isFalse h => exact .inr ⟨by simp_all, by simp_all, rfl⟩

@[simp] theorem afterCycle_fault (left : Nat) (s : State) : (afterCycle left s).fault = s.fault := by
  obtain he | ⟨-, -, he⟩ := afterCycle_cases left s <;> simp [he]

/-! ### The step -/

/-- What an operation of the host other than reset can do between frames, and what the machine does when the host has
nothing for it: everything but the cycles of a frame. -/
inductive HostMove (s : State) : State → Prop where
  /-- Nothing queued and nothing loaded. -/
  | idle : HostMove s s
  /-- An observer, or an operation a halted core does not perform (R199, R200, R219, R220). -/
  | answered (r : Option Reply) : HostMove s (s.answer r)
  /-- R201. -/
  | keysWritten (held : Vector Bool 16) : HostMove s (writeKeys held s)
  /-- R198. -/
  | drawFlagConsumed : HostMove s (consumeDrawFlag s)
  /-- A refused configuration or image (R214). -/
  | failed (hs : s.fault = none) (f : FaultValue) (hf : f ≠ .ioFailure) : HostMove s (s.failWith f)
  /-- R196. -/
  | frameRateSet (fps : Nat) (h : fps ≠ 0) : HostMove s ({ s with cfgFps := fps }.answer (some .ok))
  /-- R197. -/
  | clockSpeedSet (c : Nat) (h : c ≠ 0) : HostMove s ({ s with cfgClock := c }.answer (some .ok))
  /-- R195. -/
  | imageLoaded (bytes : List Byte) :
      HostMove s ({ s with mem := Mem.writeBytes s.mem Config.progBase bytes, loaded := true }.answer (some .ok))
  /-- A frame with an empty budget (R191). -/
  | emptyFrame : HostMove s (endFrame s)
  /-- R193. -/
  | oneCycle (u : State) (r : Option Reply) (h : cycle s = .next u) : HostMove s (u.answer r)

/-- The machine runs a cycle of a frame with `left` cycles to follow: inside the frame, or as the first of its budget. -/
def FrameRuns (s : State) (left : Nat) : Prop :=
  s.frameLeft = left + 1 ∨ (s.fault = none ∧ s.loaded = true ∧ s.budget = left + 1)

/-- What a move between operations or inside a frame can do, when it is not the host's reset. -/
def MoveOrCycle (s t : State) : Prop :=
  (s.frameLeft = 0 ∧ HostMove s t) ∨ ∃ left u, FrameRuns s left ∧ cycle s = .next u ∧ t = afterCycle left u

theorem frameCycle_next {left : Nat} (h : frameCycle left s = .next t) :
    ∃ u, cycle s = .next u ∧ t = afterCycle left u := by
  unfold frameCycle at h
  split at h
  · cases h
  · obtain ⟨u, hu, ht⟩ := Result.andThen_eq_next.mp h
    cases ht
    exact ⟨u, hu, rfl⟩

theorem beginFrame_next (hl : s.frameLeft = 0) (hrun : s.loaded = true ∨ s.fault ≠ none)
    (h : beginFrame s = .next t) : MoveOrCycle s t := by
  unfold beginFrame at h
  split at h
  case h_1 f hf => cases h; exact .inl ⟨hl, .answered _⟩
  case h_2 hf =>
    have hload : s.loaded = true := hrun.resolve_right (not_not_intro hf)
    split at h
    · cases h
    · split at h
      case h_1 => cases h; exact .inl ⟨hl, .emptyFrame⟩
      case h_2 left hb =>
        obtain ⟨u, hu, ht⟩ := frameCycle_next h
        exact .inr ⟨left, u, .inr ⟨hf, hload, hb⟩, hu, ht⟩

theorem ifRunnable_next {k : State → Result} (h : ifRunnable s k = .next t) :
    (s.loaded = true ∨ s.fault ≠ none) ∧ k s = .next t := by
  unfold ifRunnable at h
  split at h
  case isTrue hr => exact ⟨by simpa [Option.isSome_iff_ne_none] using hr, h⟩
  case isFalse => cases h

theorem executeOneCycle_next (h : executeOneCycle s = .next t) : HostMove s t := by
  obtain ⟨u, hu, ht⟩ := Result.andThen_eq_next.mp h
  cases ht
  exact .oneCycle u _ hu

/-- An operation guarded by the latch answers the latched fault, or is performed with no fault latched. -/
theorem unlessHalted_cases (s k : State) :
    (∃ f, s.fault = some f ∧ unlessHalted s k = s.answer (some (.fault f))) ∨ (s.fault = none ∧ unlessHalted s k = k) := by
  unfold unlessHalted
  split
  case h_1 f hf => exact .inl ⟨f, hf, rfl⟩
  case h_2 hf => exact .inr ⟨hf, rfl⟩

theorem HostMove.of_unlessHalted {k : State} (h : s.fault = none → HostMove s k) : HostMove s (unlessHalted s k) := by
  obtain ⟨f, -, he⟩ | ⟨hf, he⟩ := unlessHalted_cases s k
  · rw [he]; exact .answered _
  · rw [he]; exact h hf

theorem setFrameRate_hostMove (fps : Nat) (s : State) : HostMove s (setFrameRate fps s) :=
  .of_unlessHalted fun hf => by
    split
    case isTrue => exact .failed hf _ nofun
    case isFalse h => exact .frameRateSet fps h

theorem setClockSpeed_hostMove (c : Nat) (s : State) : HostMove s (setClockSpeed c s) :=
  .of_unlessHalted fun hf => by
    split
    case isTrue => exact .failed hf _ nofun
    case isFalse h => exact .clockSpeedSet c h

theorem loadImage_hostMove (hf : s.fault = none) (bytes : List Byte) : HostMove s (loadImage bytes s) := by
  unfold loadImage
  split
  · exact .failed hf _ nofun
  · exact .imageLoaded bytes

theorem loadProgram_next {bytes : List Byte} (h : loadProgram bytes s = .next t) : HostMove s t := by
  unfold loadProgram at h
  split at h
  case h_1 => cases h; exact .answered _
  case h_2 hf =>
    split at h
    · cases h
    · cases h; exact loadImage_hostMove hf bytes

theorem hostMove_next {op : HostOp} (hop : op ≠ .reset) (hl : s.frameLeft = 0) (h : hostMove op s = .next t) :
    MoveOrCycle s t := by
  cases op with
  | reset => exact absurd rfl hop
  | executeFrame =>
    obtain ⟨hrun, hb⟩ := ifRunnable_next h
    exact beginFrame_next hl hrun hb
  | executeOneCycle =>
    obtain ⟨-, hc⟩ := ifRunnable_next h
    exact .inl ⟨hl, executeOneCycle_next hc⟩
  | loadProgram bytes => exact .inl ⟨hl, loadProgram_next h⟩
  | setFrameRate fps => cases h; exact .inl ⟨hl, setFrameRate_hostMove fps s⟩
  | setClockSpeed c => cases h; exact .inl ⟨hl, setClockSpeed_hostMove c s⟩
  | writeKeys held => cases h; exact .inl ⟨hl, .keysWritten held⟩
  | consumeDrawFlag => cases h; exact .inl ⟨hl, .drawFlagConsumed⟩
  | getDisplay => cases h; exact .inl ⟨hl, .answered _⟩
  | shouldBeep => cases h; exact .inl ⟨hl, .answered _⟩
  | readFault => cases h; exact .inl ⟨hl, .answered _⟩

/-- What a step can do: the host's reset when that is next between operations, else a move or a cycle of a frame, with
the operation performed taken off the queue. -/
theorem step_cases (h : step s = .next t) : ∃ ops,
    (s.frameLeft = 0 ∧ s.hostOps.head? = some .reset ∧ t = hostReset { s with hostOps := ops }) ∨
      (¬ (s.frameLeft = 0 ∧ s.hostOps.head? = some .reset) ∧ MoveOrCycle { s with hostOps := ops } t) := by
  unfold step sessionMove at h
  split at h
  case h_1 left hl =>
    obtain ⟨u, hu, ht⟩ := frameCycle_next h
    exact ⟨s.hostOps, .inr ⟨fun ⟨h0, _⟩ => by omega, .inr ⟨left, u, .inl hl, hu, ht⟩⟩⟩
  case h_2 hl =>
    split at h
    case h_1 op ops hq =>
      by_cases hop : op = .reset
      · subst hop
        cases h
        exact ⟨ops, .inl ⟨hl, by simp [hq], rfl⟩⟩
      · exact ⟨ops, .inr ⟨by simp [hq, hop], hostMove_next hop hl h⟩⟩
    case h_2 hq =>
      refine ⟨s.hostOps, .inr ⟨by simp [hq], ?_⟩⟩
      split at h
      case isTrue hload => exact beginFrame_next hl (.inl hload) h
      case isFalse => cases h; exact .inl ⟨hl, .idle⟩

/-- A property that does not read the session's count, reply and queue survives every step when reset gives it and the
moves of the host, a cycle and a timer advance keep it. -/
theorem step_keeps (hsession : ∀ u n r ops, P u → P { u with frameLeft := n, reply := r, hostOps := ops })
    (hreset : ∀ u, P (hostReset u))
    (hhost : ∀ u v, HostMove u v → P u → P v) (hcycle : ∀ u v, cycle u = .next v → P u → P v)
    (htimers : ∀ u, P u → P (advanceTimers u)) (hs : P s) (h : step s = .next t) : P t := by
  obtain ⟨ops, hcases⟩ := step_cases h
  have hs : P { s with hostOps := ops } := hsession s s.frameLeft s.reply ops hs
  obtain ⟨-, -, rfl⟩ | ⟨-, ⟨-, hm⟩ | ⟨left, u, -, hu, rfl⟩⟩ := hcases
  · exact hreset _
  · exact hhost _ _ hm hs
  · have hu := hcycle _ u hu hs
    obtain he | ⟨-, -, he⟩ := afterCycle_cases left u
    · exact he ▸ endFrame_keeps hsession hu (htimers u hu)
    · exact he ▸ hsession u left u.reply u.hostOps hu

end Sys2Proof.Machine
end

section
/-!
SUPPORT. The invariants of every run (10_state.md rules R24, R28, R39, R190, R214): each holds at reset, and the
instructions, the cycle, the moves of the host and the frame keep it.
-/
namespace Sys2Proof.Machine

variable {s t : State}

/-! ### Timers in range (R28, R39) -/

theorem timersInRange_reset : TimersInRange State.reset := ⟨Nat.zero_le _, Nat.zero_le _⟩

/-- A register's value times P is a legal scaled timer. -/
theorem scaled_le (v : Byte) : v.toNat * Config.timerPrecision ≤ 255 * Config.timerPrecision :=
  Nat.mul_le_mul_right _ (by omega)

theorem exec_timersInRange (i : Instr) (h : TimersInRange s) : ∃ t, exec i s = .next t ∧ TimersInRange t := by
  by_cases hi : .delay ∈ writesParts i ∨ .sound ∈ writesParts i
  · obtain ⟨hdt, hst⟩ := h
    cases i with
    | ldDtVx x => exact ⟨_, rfl, scaled_le _, hst⟩
    | ldStVx x => exact ⟨_, rfl, hdt, scaled_le _⟩
    | _ => simp [writesParts] at hi
  · obtain ⟨hdelay, hsound⟩ := not_or.mp hi
    obtain ⟨t, ht, hframe⟩ := exec_inFrame i s
    have hdt : t.dtS = s.dtS := hframe.part hdelay
    have hst : t.stS = s.stS := hframe.part hsound
    exact ⟨t, ht, by simpa [TimersInRange, hdt, hst] using h⟩

theorem cycle_timersInRange (hc : cycle s = .next t) (h : TimersInRange s) : TimersInRange t :=
  cycle_keeps hc h (fun _ _ => h) (fun _ _ _ => h) fun _ i => exec_timersInRange i h

theorem advanceTimers_timersInRange (h : TimersInRange s) : TimersInRange (advanceTimers s) :=
  ⟨(Nat.sub_le _ _).trans h.1, (Nat.sub_le _ _).trans h.2⟩

theorem HostMove.timersInRange (hm : HostMove s t) (h : TimersInRange s) : TimersInRange t := by
  cases hm with
  | emptyFrame => exact endFrame_keeps (fun _ _ _ _ hu => hu) h (advanceTimers_timersInRange h)
  | oneCycle u r hc => exact cycle_timersInRange (t := u) hc h
  | _ => exact h

theorem step_timersInRange (h : TimersInRange s) (hstep : step s = .next t) : TimersInRange t :=
  step_keeps (fun _ _ _ _ hu => hu) (fun _ => timersInRange_reset)
    (fun _ _ => HostMove.timersInRange) (fun _ _ => cycle_timersInRange) (fun _ => advanceTimers_timersInRange) h hstep

/-! ### The configuration is positive (R32, R39) -/

theorem configPositive_reset : ConfigPositive State.reset := ⟨by decide, by decide⟩

theorem cycle_configPositive (hc : cycle s = .next t) (h : ConfigPositive s) : ConfigPositive t := by
  obtain ⟨-, hfps, hclock, -⟩ := cycle_hostSideKept hc
  simpa [ConfigPositive, hfps, hclock] using h

theorem HostMove.configPositive (hm : HostMove s t) (h : ConfigPositive s) : ConfigPositive t := by
  cases hm with
  | frameRateSet fps hfps => exact ⟨Nat.one_le_iff_ne_zero.mpr hfps, h.2⟩
  | clockSpeedSet c hc => exact ⟨h.1, Nat.one_le_iff_ne_zero.mpr hc⟩
  | emptyFrame => exact endFrame_keeps (fun _ _ _ _ hu => hu) h h
  | oneCycle u r hc => exact cycle_configPositive (t := u) hc h
  | _ => exact h

theorem step_configPositive (h : ConfigPositive s) (hstep : step s = .next t) : ConfigPositive t :=
  step_keeps (fun _ _ _ _ hu => hu) (fun _ => configPositive_reset)
    (fun _ _ => HostMove.configPositive) (fun _ _ => cycle_configPositive) (fun _ hu => hu) h hstep

/-! ### The latch (R214, R217) -/

theorem latchPossible_reset : LatchPossible State.reset := nofun

theorem latchPossible_raise {f : FaultValue} (hf : f ≠ .ioFailure) (s : State) : LatchPossible (s.raise f) :=
  fun h => hf (Option.some.inj h)

theorem exec_latchPossible (i : Instr) (h : LatchPossible s) : ∃ t, exec i s = .next t ∧ LatchPossible t := by
  by_cases hi : .latch ∈ writesParts i
  · cases i with
    | ret => exact execRet_answers (fun _ => h) (latchPossible_raise (by simp) s)
    | call nnn => exact execCall_answers (fun _ => h) (latchPossible_raise (by simp) s)
    | drw x y n => exact execDrw_answers (fun _ _ => h) fun _ => latchPossible_raise (by simp) s
    | skp x => exact execSkp_answers (by simpa [LatchPossible] using h) (latchPossible_raise (by simp) s)
    | sknp x => exact execSknp_answers (by simpa [LatchPossible] using h) (latchPossible_raise (by simp) s)
    | ldBcd x => exact execLdBcd_answers h (latchPossible_raise (by simp) s)
    | storeRegs x => exact execStoreRegs_answers h (latchPossible_raise (by simp) s)
    | loadRegs x => exact execLoadRegs_answers h (latchPossible_raise (by simp) s)
    | _ => simp [writesParts] at hi
  · obtain ⟨t, ht, hframe⟩ := exec_inFrame i s
    have hlatch : t.fault = s.fault := hframe.part hi
    exact ⟨t, ht, by simpa [LatchPossible, hlatch] using h⟩

theorem cycle_latchPossible (hc : cycle s = .next t) (h : LatchPossible s) : LatchPossible t :=
  cycle_keeps hc h (fun _ hf => latchPossible_raise hf s) (fun _ _ hf => latchPossible_raise hf s.advancePc)
    fun _ i => exec_latchPossible i h

theorem HostMove.latchPossible (hm : HostMove s t) (h : LatchPossible s) : LatchPossible t := by
  cases hm with
  | failed _ f hf => exact latchPossible_raise hf s
  | emptyFrame => exact endFrame_keeps (fun _ _ _ _ hu => hu) h h
  | oneCycle u r hc => exact cycle_latchPossible (t := u) hc h
  | _ => exact h

theorem step_latchPossible (h : LatchPossible s) (hstep : step s = .next t) : LatchPossible t :=
  step_keeps (fun _ _ _ _ hu => hu) (fun _ => latchPossible_reset)
    (fun _ _ => HostMove.latchPossible) (fun _ _ => cycle_latchPossible) (fun _ hu => hu) h hstep

/-! ### A frame in progress is consistent (R190, R191) -/

theorem frameConsistent_between (h : s.frameLeft = 0) : FrameConsistent s := fun hne => absurd h hne

/-- A cycle does not count: the frame's count is the sequencer's. -/
theorem cycle_frameLeft (hc : cycle s = .next t) : t.frameLeft = s.frameLeft := by
  obtain ⟨-, -, -, hleft, -⟩ := cycle_hostSideKept hc
  exact hleft

theorem HostMove.frameLeft (hm : HostMove s t) (h : s.frameLeft = 0) : t.frameLeft = 0 := by
  cases hm with
  | emptyFrame => exact endFrame_frameLeft s
  | oneCycle u r hc => exact (cycle_frameLeft hc).trans h
  | _ => exact h

/-- A frame that runs a cycle on a consistent state runs a loaded program, within its budget. -/
theorem FrameRuns.within_budget {left : Nat} (hr : FrameRuns s left) (h : FrameConsistent s) :
    s.loaded = true ∧ left + 1 ≤ s.budget := by
  obtain hl | ⟨-, hload, hb⟩ := hr
  · obtain ⟨-, hload, hle⟩ := h (by omega)
    exact ⟨hload, by omega⟩
  · exact ⟨hload, hb.ge⟩

theorem afterCycle_frameConsistent {left : Nat} (hload : s.loaded = true) (hleft : left ≤ s.budget) :
    FrameConsistent (afterCycle left s) := by
  obtain he | ⟨hf, -, he⟩ := afterCycle_cases left s
  · exact he ▸ frameConsistent_between (endFrame_frameLeft s)
  · exact he ▸ fun _ => ⟨hf, hload, hleft⟩

theorem step_frameConsistent (h : FrameConsistent s) (hstep : step s = .next t) : FrameConsistent t := by
  obtain ⟨ops, ⟨-, -, rfl⟩ | ⟨-, ⟨hl, hm⟩ | ⟨left, u, hr, hu, rfl⟩⟩⟩ := step_cases hstep
  · exact frameConsistent_between rfl
  · exact frameConsistent_between (hm.frameLeft hl)
  · obtain ⟨hload, hleft⟩ := hr.within_budget h
    obtain ⟨-, hfps, hclock, -, hloaded, -⟩ := cycle_hostSideKept hu
    have hbudget : u.budget = s.budget := by simp [State.budget, hfps, hclock]
    exact afterCycle_frameConsistent (hloaded.trans hload) (hbudget ▸ Nat.le_of_succ_le hleft)

/-! ### The program counter is bounded (R24) -/

/-- Where the fetch leaves `pc` and the live stack slots: `pc` past an instruction within memory. -/
structure Fetched (s : State) : Prop where
  pc_ge : 2 ≤ s.pc.toNat
  pc_le : s.pc.toNat ≤ 0x1000
  saved : ∀ k : Fin Config.stackDepth, k.val < s.sp.val → s.stack[k].toNat ≤ 0x1000

theorem pcBounded_reset : PcBounded State.reset := ⟨by decide, fun _ hk => absurd hk (Nat.not_lt_zero _)⟩

theorem advancePc_fetched (h : PcBounded s) (hpc : s.pc.toNat + 1 < Config.memSize) : Fetched s.advancePc := by
  obtain ⟨-, hsaved⟩ := h
  have hpc : s.pc.toNat + 1 < 4096 := hpc
  have hadv : s.advancePc.pc.toNat = s.pc.toNat + 2 := by rw [State.advancePc_pc]; bv_omega
  exact ⟨by omega, by omega, hsaved⟩

theorem Fetched.setPc (h : Fetched s) {v : Word} (hv : v.toNat ≤ 0x10FE) : PcBounded (s.setPc v) := ⟨hv, h.saved⟩

theorem Fetched.pcBounded (h : Fetched s) : PcBounded s := ⟨h.pc_le.trans (by decide), h.saved⟩

theorem Fetched.skipIf (h : Fetched s) (c : Bool) : PcBounded (s.skipIf c) := by
  cases c with
  | false => exact h.pcBounded
  | true => exact h.setPc (by have := h.pc_le; bv_omega)

theorem Fetched.rewindPc (h : Fetched s) : PcBounded s.rewindPc :=
  h.setPc (by have := h.pc_ge; have := h.pc_le; bv_omega)

theorem Fetched.popPc (h : Fetched s) (hlive : 0 < s.sp.val) : PcBounded (s.popPc hlive) := by
  have hsp := s.sp.isLt
  have hpop : (s.popPc hlive).pc.toNat ≤ 0x1000 := h.saved ⟨s.sp.val - 1, by omega⟩ (Nat.sub_lt hlive Nat.one_pos)
  exact ⟨hpop.trans (by decide), fun k hk => h.saved k (hk.trans_le (Nat.sub_le _ _))⟩

theorem Fetched.pushPc (h : Fetched s) (hfree : s.sp.val < Config.stackDepth) : Fetched (s.pushPc hfree) := by
  refine ⟨h.pc_ge, h.pc_le, fun k hk => ?_⟩
  have hk : k.val < s.sp.val + 1 := hk
  by_cases he : s.sp.val = k.val
  · simpa [he] using h.pc_le
  · simpa [he] using h.saved k (by omega)

theorem zextAddr_le (nnn : Addr12) : (zextAddr nnn).toNat ≤ 0x10FE := by
  rw [zextAddr_toNat]; omega

/-- The furthest BNNN reaches is 0xFFF + 0xFF (R104). -/
theorem jpV0_target_le (nnn : Addr12) (v : Byte) :
    (BitVec.ofNat 16 ((nnn.toNat + v.toNat) % 65536)).toNat ≤ 0x10FE := by
  rw [BitVec.toNat_ofNat]; omega

theorem exec_pcBounded (i : Instr) (h : Fetched s) : ∃ t, exec i s = .next t ∧ PcBounded t := by
  by_cases hi : .pc ∈ writesParts i
  · cases i with
    | jp nnn => exact ⟨_, rfl, h.setPc (zextAddr_le nnn)⟩
    | jpV0 nnn => exact ⟨_, rfl, h.setPc (jpV0_target_le nnn _)⟩
    | call nnn => exact execCall_answers (fun hfree => (h.pushPc hfree).setPc (zextAddr_le nnn)) h.pcBounded
    | ret => exact execRet_answers h.popPc h.pcBounded
    | seImm x nn => exact ⟨_, rfl, h.skipIf _⟩
    | sneImm x nn => exact ⟨_, rfl, h.skipIf _⟩
    | seReg x y => exact ⟨_, rfl, h.skipIf _⟩
    | sneReg x y => exact ⟨_, rfl, h.skipIf _⟩
    | skp x => exact execSkp_answers h.skipIf h.pcBounded
    | sknp x => exact execSknp_answers h.skipIf h.pcBounded
    | ldVxKey x => exact execLdVxKey_answers (fun _ => h.pcBounded) h.rewindPc
    | _ => simp [writesParts] at hi
  · have hstack : .slots ∉ writesParts i ∧ .sp ∉ writesParts i := by
      cases i <;> simp_all [writesParts]
    obtain ⟨hslots, hsp⟩ := hstack
    obtain ⟨t, ht, hframe⟩ := exec_inFrame i s
    have hpc : t.pc = s.pc := hframe.part hi
    have hslots : t.stack = s.stack := hframe.part hslots
    have hsp : t.sp = s.sp := hframe.part hsp
    exact ⟨t, ht, by simpa [PcBounded, hpc, hslots, hsp] using h.pcBounded⟩

theorem cycle_pcBounded (hc : cycle s = .next t) (h : PcBounded s) : PcBounded t :=
  cycle_keeps hc h (fun _ _ => h) (fun hpc _ _ => (advancePc_fetched h hpc).pcBounded)
    fun hpc i => exec_pcBounded i (advancePc_fetched h hpc)

theorem HostMove.pcBounded (hm : HostMove s t) (h : PcBounded s) : PcBounded t := by
  cases hm with
  | emptyFrame => exact endFrame_keeps (fun _ _ _ _ hu => hu) h h
  | oneCycle u r hc => exact cycle_pcBounded (t := u) hc h
  | _ => exact h

/-! ### The halted core (R219, R220) -/

theorem unlessHalted_of_fault {f : FaultValue} (hf : s.fault = some f) (k : State) :
    unlessHalted s k = { s with reply := some (.fault f) } := by
  simp [unlessHalted, hf, State.answer]

theorem HostMove.fault_sticky (hm : HostMove s t) {f : FaultValue} (hf : s.fault = some f) : t.fault = some f := by
  cases hm with
  | failed hs => simp [hs] at hf
  | emptyFrame => rwa [endFrame_fault]
  | oneCycle u r hc =>
    cases hc.symm.trans (cycle_of_fault hf)
    exact hf
  | _ => exact hf

theorem MoveOrCycle.fault_sticky (hm : MoveOrCycle s t) {f : FaultValue} (hf : s.fault = some f) :
    t.fault = some f := by
  obtain ⟨-, hm⟩ | ⟨left, u, -, hc, rfl⟩ := hm
  · exact hm.fault_sticky hf
  · cases hc.symm.trans (cycle_of_fault hf)
    rwa [afterCycle_fault]

/-- On a halted core a step keeps the latch, unless it performs the host's reset, which clears it. -/
theorem step_of_fault {f : FaultValue} (hf : s.fault = some f) (hstep : step s = .next t) :
    if s.frameLeft = 0 ∧ s.hostOps.head? = some .reset then t.fault = none else t.fault = some f := by
  obtain ⟨ops, ⟨hl, hq, rfl⟩ | ⟨hne, hm⟩⟩ := step_cases hstep
  · rw [if_pos ⟨hl, hq⟩]; rfl
  · rw [if_neg hne]; exact hm.fault_sticky hf

end Sys2Proof.Machine

open Sys2Proof Sys2Proof.Machine

/-- Settles O57: the four invariants, each kept by every step on its own. -/
theorem stepKeepsRangesOfTheSpec : Obligations.StepKeepsRangesOfTheSpec := by
  rintro s t ⟨htimers, hconfig, hlatch, hframe⟩ hstep
  exact ⟨step_timersInRange htimers hstep, step_configPositive hconfig hstep, step_latchPossible hlatch hstep,
    step_frameConsistent hframe hstep⟩

/-- Settles O58: a fetch succeeds only below 0xFFF, so `pc` is at most 0x1000 when an instruction runs, and that is all
CALL saves; the largest step from there is BNNN's. -/
theorem stepKeepsPcBounded : Obligations.StepKeepsPcBounded := fun _ _ h hstep =>
  step_keeps (fun _ _ _ _ hu => hu) (fun _ => pcBounded_reset) (fun _ _ => HostMove.pcBounded)
    (fun _ _ => cycle_pcBounded) (fun _ hu => hu) h hstep

/-- Settles O48: each operation's answer with a fault latched, and the latch kept by every step but the reset. -/
theorem haltedCoreMovesNoMore : Obligations.HaltedCoreMovesNoMore := by
  intro s f n bytes held hf
  have hcycle := cycle_of_fault hf
  exact ⟨hcycle, by simp [executeFrame, hf, State.answer], by simp [executeOneCycle, hcycle, hf, State.answer],
    by simp [loadProgram, hf, State.answer], unlessHalted_of_fault hf _, unlessHalted_of_fault hf _, rfl, rfl, rfl, rfl,
    fun _ => step_of_fault hf⟩

/-- Settles O59: each invariant at reset. -/
theorem resetMeetsTheInvariants : Obligations.ResetMeetsTheInvariants :=
  ⟨rfl, timersInRange_reset, configPositive_reset, latchPossible_reset, frameConsistent_between rfl, pcBounded_reset⟩

end

section
/-!
SUPPORT. What a store leaves in memory (43_index_and_memory.md rule R144) and what a fetch within memory dispatches
(30_encoding.md rule R85).
-/
namespace Sys2Proof.Machine

variable {s : State} {x i : RegIdx} {hi lo : Byte}

/-! ### The store of a register block -/

/-- A store whose highest address is within memory takes no fault: it writes the block of registers. -/
theorem exec_storeRegs_inside (hin : s.I.toNat + x.toNat ≤ 0xFFF) :
    exec (.storeRegs x) s = .next (s.setMem (Mem.writeBytes s.mem (s.addrI 0) (s.regBlock x))) :=
  checkAddr_inside (kind := .write) (Nat.lt_succ_of_le hin) s
    fun s => .next (s.setMem (Mem.writeBytes s.mem (s.addrI 0) (s.regBlock x)))

/-- Each register of a stored block is read back at its own address. -/
theorem read_storedRegs (hmem : MemCanonical s) (hin : s.I.toNat + x.toNat ≤ 0xFFF) (hix : i.toNat ≤ x.toNat) :
    Mem.read (Mem.writeBytes s.mem (s.addrI 0) (s.regBlock x)) (s.addrI i.toNat) = s.getV i := by
  have hlen : (s.regBlock x).length = x.toNat + 1 := s.regBlock_length x
  have hfits : s.addrI 0 + (s.regBlock x).length ≤ Config.memSize := by
    rw [hlen]; exact Nat.succ_le_succ hin
  have hk : i.toNat < (s.regBlock x).length := by omega
  calc Mem.read (Mem.writeBytes s.mem (s.addrI 0) (s.regBlock x)) (s.addrI 0 + i.toNat)
      = (s.regBlock x)[i.toNat] := Mem.read_writeBytes_inside hmem _ _ hfits hk
    _ = s.getV i := s.regBlock_get x hk

/-! ### The fetch and the dispatch -/

/-- With no fault latched and both bytes within memory, a cycle dispatches the two bytes at `pc`. -/
theorem cycle_eq_dispatchBytes (hf : s.fault = none) (hpc : s.pc.toNat + 1 < Config.memSize)
    (hhi : s.readByte s.pc.toNat = hi) (hlo : s.readByte (s.pc.toNat + 1) = lo) :
    cycle s = dispatchBytes [hi, lo] s.advancePc := by
  simp [cycle, fetchBytes, hf, hpc, hhi, hlo]

theorem dispatchBytes_legal {j : Instr} (hd : decodeWord (wordOfBytes hi lo) = some j) (s : State) :
    dispatchBytes [hi, lo] s = exec j s := by
  simp [dispatchBytes, decode, hd]

theorem dispatchBytes_illegal (hd : decodeWord (wordOfBytes hi lo) = none) (s : State) :
    dispatchBytes [hi, lo] s = .next (s.raise (.unknownInstruction (wordOfBytes hi lo))) := by
  simp [dispatchBytes, decode, hd]

/-- After V0 and V1 are stored at I, the cycle at I dispatches their two bytes: nothing stands between memory and the
fetch (R61). -/
theorem cycle_after_store (hmem : MemCanonical s) (hf : s.fault = none) (hin : s.I.toNat + 1 ≤ 0xFFF) :
    ∃ t, exec (.storeRegs 1) s = .next t ∧
      cycle (t.setPc s.I) = dispatchBytes [s.getV 0, s.getV 1] (t.setPc (s.I + 2)) := by
  have hV0 := read_storedRegs (x := 1) (i := 0) hmem hin (by decide)
  have hV1 := read_storedRegs (x := 1) (i := 1) hmem hin (by decide)
  exact ⟨_, exec_storeRegs_inside hin,
    cycle_eq_dispatchBytes (s := State.setPc _ s.I) hf (Nat.lt_succ_of_le hin) hV0 hV1⟩

end Sys2Proof.Machine

open Sys2Proof Sys2Proof.Machine

/-- Settles O27: the cycle at I dispatches V0 and V1, as an instruction or as an unknown word. -/
theorem storeIsSeenByTheNextFetch : Obligations.StoreIsSeenByTheNextFetch := by
  intro s hmem hf hin
  obtain ⟨t, ht, hcycle⟩ := cycle_after_store hmem hf hin
  refine ⟨t, ht, ?_⟩
  cases hd : decodeWord (wordOfBytes (s.getV 0) (s.getV 1)) with
  | some j => exact hcycle.trans (dispatchBytes_legal hd _)
  | none => exact hcycle.trans (dispatchBytes_illegal hd _)

end

section
/-!
SUPPORT. The decoder against the encoder (30_encoding.md rules R71 to R76): what each class of word decodes to, and a
word put together again from its fields.
-/
namespace Sys2Proof

variable {w : Word} {op n : Nibble} {nn : Byte} {i : Instr}

/-! ### Decoding what was encoded -/

@[simp] theorem decodeWord_encode (i : Instr) : decodeWord (encode i) = some i := by
  cases i with
  | cls | ret => decide
  | jp | call | ldI | jpV0 => simp [encode, decodeWord]
  | seImm | sneImm | ldImm | addImm | rnd => simp [encode, decodeWord]
  | drw => simp [encode, decodeWord]
  | seReg => simp [encode, decodeWord, decodeClass5]
  | ldReg | orReg | andReg | xorReg | addReg | sub | shr | subn | shl => simp [encode, decodeWord, decodeClass8]
  | sneReg => simp [encode, decodeWord, decodeClass9]
  | skp | sknp => simp [encode, decodeWord, decodeClassE]
  | ldVxDt | ldVxKey | ldDtVx | ldStVx | addI | ldFont | ldBcd | storeRegs | loadRegs =>
    simp [encode, decodeWord, decodeClassF]

theorem decode_encodeBytes_append (i : Instr) (rest : List Byte) : decode (encodeBytes i ++ rest) = .ok (i, rest) := by
  simp [encodeBytes, decode]

/-! ### A word from its fields -/

theorem wordA_of_opField (hop : opField w = op) : wordA op (nnnField w) = w := by
  apply BitVec.eq_of_toNat_eq
  rw [← hop, wordA_toNat, opField_toNat, nnnField_toNat]
  omega

theorem wordXK_of_opField (hop : opField w = op) : wordXK op (xField w) (nnField w) = w := by
  apply BitVec.eq_of_toNat_eq
  rw [← hop, wordXK_toNat, opField_toNat, xField_toNat, nnField_toNat]
  omega

theorem wordXY_of_opField (hop : opField w = op) : wordXY op (xField w) (yField w) (nField w) = w := by
  apply BitVec.eq_of_toNat_eq
  rw [← hop, wordXY_toNat, opField_toNat, xField_toNat, yField_toNat, nField_toNat]
  omega

theorem wordXK_of_selector (hop : opField w = op) (hnn : (nnField w).toNat = nn.toNat) :
    wordXK op (xField w) nn = w :=
  BitVec.eq_of_toNat_eq hnn ▸ wordXK_of_opField hop

theorem wordXY_of_selector (hop : opField w = op) (hn : (nField w).toNat = n.toNat) :
    wordXY op (xField w) (yField w) n = w :=
  BitVec.eq_of_toNat_eq hn ▸ wordXY_of_opField hop

/-! ### The classes -/

theorem opField_cases (w : Word) :
    opField w = 0x0 ∨ opField w = 0x1 ∨ opField w = 0x2 ∨ opField w = 0x3 ∨ opField w = 0x4 ∨ opField w = 0x5 ∨
      opField w = 0x6 ∨ opField w = 0x7 ∨ opField w = 0x8 ∨ opField w = 0x9 ∨ opField w = 0xA ∨ opField w = 0xB ∨
      opField w = 0xC ∨ opField w = 0xD ∨ opField w = 0xE ∨ opField w = 0xF := by
  generalize opField w = c
  decide +revert

theorem encode_of_decodeClass0 (h : decodeClass0 w = some i) : encode i = w := by
  unfold decodeClass0 at h
  split_ifs at h with hcls hret <;> cases h
  · exact hcls.symm
  · exact hret.symm

theorem encode_of_decodeClass5 (hop : opField w = 0x5) (h : decodeClass5 w = some i) : encode i = w := by
  unfold decodeClass5 at h
  split_ifs at h with hn
  cases h
  exact wordXY_of_selector hop (congrArg BitVec.toNat hn)

theorem encode_of_decodeClass8 (hop : opField w = 0x8) (h : decodeClass8 w = some i) : encode i = w := by
  unfold decodeClass8 at h
  split at h <;> cases h
  all_goals exact wordXY_of_selector hop ‹_›

theorem encode_of_decodeClass9 (hop : opField w = 0x9) (h : decodeClass9 w = some i) : encode i = w := by
  unfold decodeClass9 at h
  split_ifs at h with hn
  cases h
  exact wordXY_of_selector hop (congrArg BitVec.toNat hn)

theorem encode_of_decodeClassE (hop : opField w = 0xE) (h : decodeClassE w = some i) : encode i = w := by
  unfold decodeClassE at h
  split at h <;> cases h
  all_goals exact wordXK_of_selector hop ‹_›

theorem encode_of_decodeClassF (hop : opField w = 0xF) (h : decodeClassF w = some i) : encode i = w := by
  unfold decodeClassF at h
  split at h <;> cases h
  all_goals exact wordXK_of_selector hop ‹_›

/-- Class by class, in the order of the first-level dispatch (R76). -/
theorem encode_of_decodeWord (h : decodeWord w = some i) : encode i = w := by
  obtain hop | hop | hop | hop | hop | hop | hop | hop | hop | hop | hop | hop | hop | hop | hop | hop :=
    opField_cases w
  all_goals rw [decodeWord, hop] at h
  · exact encode_of_decodeClass0 h
  · cases h; exact wordA_of_opField hop
  · cases h; exact wordA_of_opField hop
  · cases h; exact wordXK_of_opField hop
  · cases h; exact wordXK_of_opField hop
  · exact encode_of_decodeClass5 hop h
  · cases h; exact wordXK_of_opField hop
  · cases h; exact wordXK_of_opField hop
  · exact encode_of_decodeClass8 hop h
  · exact encode_of_decodeClass9 hop h
  · cases h; exact wordA_of_opField hop
  · cases h; exact wordA_of_opField hop
  · cases h; exact wordXK_of_opField hop
  · cases h; exact wordXY_of_opField hop
  · exact encode_of_decodeClassE hop h
  · exact encode_of_decodeClassF hop h

/-- A word decodes to an instruction exactly when it is that instruction's word. -/
theorem decodeWord_eq_some_iff : decodeWord w = some i ↔ encode i = w :=
  ⟨encode_of_decodeWord, fun h => h ▸ decodeWord_encode i⟩

/-! ### The illegal words of a class (R77) -/

theorem decodeClass0_eq_none : decodeClass0 w = none ↔ w ≠ 0x00E0 ∧ w ≠ 0x00EE := by
  unfold decodeClass0
  split_ifs <;> simp_all

theorem decodeClass5_eq_none : decodeClass5 w = none ↔ nField w ≠ 0 := by
  simp [decodeClass5]

theorem decodeClass8_eq_none :
    decodeClass8 w = none ↔ nField w ∈ ([0x8, 0x9, 0xA, 0xB, 0xC, 0xD, 0xF] : List Nibble) := by
  unfold decodeClass8
  split
  case h_10 => simp_all [← BitVec.toNat_inj]; omega
  all_goals simp_all [← BitVec.toNat_inj]

theorem decodeClass9_eq_none : decodeClass9 w = none ↔ nField w ≠ 0 := by
  simp [decodeClass9]

theorem decodeClassE_eq_none : decodeClassE w = none ↔ nnField w ∉ ([0x9E, 0xA1] : List Byte) := by
  unfold decodeClassE
  split <;> simp_all [← BitVec.toNat_inj]

theorem decodeClassF_eq_none : decodeClassF w = none ↔
    nnField w ∉ ([0x07, 0x0A, 0x15, 0x18, 0x1E, 0x29, 0x33, 0x55, 0x65] : List Byte) := by
  unfold decodeClassF
  split <;> simp_all [← BitVec.toNat_inj]

end Sys2Proof

open Sys2Proof

/-- Settles O1: the decoder reads the class of each encoding, then its selector, then its operands. -/
theorem decodeOfEncodeIsTheInstruction : Obligations.DecodeOfEncodeIsTheInstruction := decode_encodeBytes_append

/-- Settles O2: in each class the fields the decoder reads, with the class and selector it tests, make up the word. -/
theorem encodeOfDecodeIsTheWord : Obligations.EncodeOfDecodeIsTheWord := fun _ _ =>
  decodeWord_eq_some_iff.mp

/-- Settles O5: the ten classes without a selector are always legal, and each other class rejects by its own rule. -/
theorem illegalWordsAreThoseOfTheTable : Obligations.IllegalWordsAreThoseOfTheTable := by
  intro w
  obtain hop | hop | hop | hop | hop | hop | hop | hop | hop | hop | hop | hop | hop | hop | hop | hop :=
    opField_cases w
  all_goals simp [decodeWord, hop, decodeClass0_eq_none, decodeClass5_eq_none, decodeClass8_eq_none,
    decodeClass9_eq_none, decodeClassE_eq_none, decodeClassF_eq_none]

end

section
/-!
SUPPORT. The opcode map (30_encoding.md rule R75): which row a word matches, and that it decides the fields the decoder
reads (R76).
-/
namespace Sys2Proof

variable {w : Word} {r q : OpcodeRow}

/-! ### The row of an instruction -/

theorem row_matchesWord_encode : ∀ i : Instr, i.row.matchesWord (encode i) = true
  | .cls => Laws.RowOfEncoding.cls
  | .ret => Laws.RowOfEncoding.ret
  | .jp nnn => Laws.RowOfEncoding.jp nnn
  | .call nnn => Laws.RowOfEncoding.call nnn
  | .seImm x nn => Laws.RowOfEncoding.seImm x nn
  | .sneImm x nn => Laws.RowOfEncoding.sneImm x nn
  | .seReg x y => Laws.RowOfEncoding.seReg x y
  | .ldImm x nn => Laws.RowOfEncoding.ldImm x nn
  | .addImm x nn => Laws.RowOfEncoding.addImm x nn
  | .ldReg x y => Laws.RowOfEncoding.ldReg x y
  | .orReg x y => Laws.RowOfEncoding.orReg x y
  | .andReg x y => Laws.RowOfEncoding.andReg x y
  | .xorReg x y => Laws.RowOfEncoding.xorReg x y
  | .addReg x y => Laws.RowOfEncoding.addReg x y
  | .sub x y => Laws.RowOfEncoding.sub x y
  | .shr x y => Laws.RowOfEncoding.shr x y
  | .subn x y => Laws.RowOfEncoding.subn x y
  | .shl x y => Laws.RowOfEncoding.shl x y
  | .sneReg x y => Laws.RowOfEncoding.sneReg x y
  | .ldI nnn => Laws.RowOfEncoding.ldI nnn
  | .jpV0 nnn => Laws.RowOfEncoding.jpV0 nnn
  | .rnd x nn => Laws.RowOfEncoding.rnd x nn
  | .drw x y n => Laws.RowOfEncoding.drw x y n
  | .skp x => Laws.RowOfEncoding.skp x
  | .sknp x => Laws.RowOfEncoding.sknp x
  | .ldVxDt x => Laws.RowOfEncoding.ldVxDt x
  | .ldVxKey x => Laws.RowOfEncoding.ldVxKey x
  | .ldDtVx x => Laws.RowOfEncoding.ldDtVx x
  | .ldStVx x => Laws.RowOfEncoding.ldStVx x
  | .addI x => Laws.RowOfEncoding.addI x
  | .ldFont x => Laws.RowOfEncoding.ldFont x
  | .ldBcd x => Laws.RowOfEncoding.ldBcd x
  | .storeRegs x => Laws.RowOfEncoding.storeRegs x
  | .loadRegs x => Laws.RowOfEncoding.loadRegs x

theorem row_mem_opcodeRows (i : Instr) : i.row ∈ opcodeRows := by
  cases i <;> simp [opcodeRows, opcodeRowsLow, opcodeRowsAlu, opcodeRowsHigh, Instr.row]

theorem wellFormedWord_encode (i : Instr) : wellFormedWord (encode i) = true :=
  List.any_eq_true.mpr ⟨i.row, row_mem_opcodeRows i, row_matchesWord_encode i⟩

/-! ### What a match says of the fields -/

theorem matchesWord_iff : r.matchesWord w = true ↔ w &&& r.mask = r.pat := beq_iff_eq

theorem opField_and (v w : Word) : opField (v &&& w) = opField v &&& opField w := BitVec.extractLsb'_and

theorem nField_and (v w : Word) : nField (v &&& w) = nField v &&& nField w := BitVec.extractLsb'_and

theorem nnField_and (v w : Word) : nnField (v &&& w) = nnField v &&& nnField w := BitVec.extractLsb'_and

theorem opField_of_matchesWord (hr : r.matchesWord w = true) (hmask : opField r.mask = 0xF) :
    opField w = opField r.pat := by
  rw [← matchesWord_iff.mp hr, opField_and, hmask]
  exact (nibble_and_ones _).symm

theorem nField_of_matchesWord (hr : r.matchesWord w = true) (hmask : nField r.mask = 0xF) :
    nField w = nField r.pat := by
  rw [← matchesWord_iff.mp hr, nField_and, hmask]
  exact (nibble_and_ones _).symm

theorem nnField_of_matchesWord (hr : r.matchesWord w = true) (hmask : nnField r.mask = 0xFF) :
    nnField w = nnField r.pat := by
  rw [← matchesWord_iff.mp hr, nnField_and, hmask]
  exact (byte_and_ones _).symm

theorem eq_pat_of_matchesWord (hr : r.matchesWord w = true) (hmask : r.mask = 0xFFFF) : w = r.pat := by
  rw [← matchesWord_iff.mp hr, hmask]
  exact BitVec.and_allOnes.symm

/-! ### Two rows -/

/-- Rows that fix some bit differently do not match one word. -/
theorem OpcodeRow.not_both_of_disjoint (h : r.disjoint q = true) (hr : r.matchesWord w = true) :
    ¬ q.matchesWord w = true := by
  intro hq
  have hbits : r.mask &&& q.mask &&& (w &&& r.mask ^^^ (w &&& q.mask)) = 0 := by
    ext k hk
    simp only [BitVec.getElem_and, BitVec.getElem_xor]
    cases r.mask[k] <;> cases q.mask[k] <;> simp
  rw [matchesWord_iff.mp hr, matchesWord_iff.mp hq] at hbits
  simp [OpcodeRow.disjoint, hbits] at h

/-- R75: no word matches two rows, as a fact about masks and patterns alone. -/
theorem opcodeRows_disjoint : opcodeRows.Pairwise fun r q => r.disjoint q = true := by decide

theorem opcodeRows_filter_length_le_one (w : Word) : (opcodeRows.filter fun r => r.matchesWord w).length ≤ 1 := by
  have hpair := opcodeRows_disjoint.filter fun r => r.matchesWord w
  have hmatch : ∀ r ∈ opcodeRows.filter fun r => r.matchesWord w, r.matchesWord w = true :=
    fun r hr => (List.mem_filter.mp hr).2
  generalize (opcodeRows.filter fun r => r.matchesWord w) = rows at *
  match rows with
  | [] => exact Nat.zero_le 1
  | [_] => exact Nat.le_refl 1
  | r :: q :: _ =>
    have hrq : r.disjoint q = true := List.rel_of_pairwise_cons hpair List.mem_cons_self
    have hq : q.matchesWord w = true := hmatch q (List.mem_cons_of_mem _ List.mem_cons_self)
    exact absurd hq (OpcodeRow.not_both_of_disjoint hrq (hmatch r List.mem_cons_self))

/-! ### The rows of a class

Every row fixes the class; where a class has a selector, its rows fix the selector too, to the values the decoder
accepts there. -/

theorem opcodeRows_fix_class : ∀ r ∈ opcodeRows, opField r.mask = 0xF := by decide

theorem opcodeRows_class0 : ∀ r ∈ opcodeRows, opField r.pat = 0x0 →
    r.mask = 0xFFFF ∧ (r.pat = 0x00E0 ∨ r.pat = 0x00EE) := by decide

theorem opcodeRows_class5 : ∀ r ∈ opcodeRows, opField r.pat = 0x5 → nField r.mask = 0xF ∧ nField r.pat = 0 := by
  decide

theorem opcodeRows_class8 : ∀ r ∈ opcodeRows, opField r.pat = 0x8 →
    nField r.mask = 0xF ∧ nField r.pat ∉ ([0x8, 0x9, 0xA, 0xB, 0xC, 0xD, 0xF] : List Nibble) := by decide

theorem opcodeRows_class9 : ∀ r ∈ opcodeRows, opField r.pat = 0x9 → nField r.mask = 0xF ∧ nField r.pat = 0 := by
  decide

theorem opcodeRows_classE : ∀ r ∈ opcodeRows, opField r.pat = 0xE →
    nnField r.mask = 0xFF ∧ nnField r.pat ∈ ([0x9E, 0xA1] : List Byte) := by decide

theorem opcodeRows_classF : ∀ r ∈ opcodeRows, opField r.pat = 0xF →
    nnField r.mask = 0xFF ∧
      nnField r.pat ∈ ([0x07, 0x0A, 0x15, 0x18, 0x1E, 0x29, 0x33, 0x55, 0x65] : List Byte) := by decide

/-! ### Legal and illegal words -/

/-- An illegal word matches no row. -/
theorem not_matchesWord_of_illegal (hd : decodeWord w = none) (r : OpcodeRow) (hr : r ∈ opcodeRows) :
    ¬ r.matchesWord w = true := by
  intro hm
  have hclass := opField_of_matchesWord hm (opcodeRows_fix_class r hr)
  obtain ⟨hop, hcls, hret⟩ | ⟨hop, hn⟩ | ⟨hop, hn⟩ | ⟨hop, hn⟩ | ⟨hop, hnn⟩ | ⟨hop, hnn⟩ :=
    (illegalWordsAreThoseOfTheTable w).mp hd
  · obtain ⟨hmask, hpat⟩ := opcodeRows_class0 r hr (hclass ▸ hop)
    have hw := eq_pat_of_matchesWord hm hmask
    exact hpat.elim (fun h => hcls (hw.trans h)) fun h => hret (hw.trans h)
  · obtain ⟨hmask, hpat⟩ := opcodeRows_class5 r hr (hclass ▸ hop)
    exact hn (nField_of_matchesWord hm hmask ▸ hpat)
  · obtain ⟨hmask, hpat⟩ := opcodeRows_class8 r hr (hclass ▸ hop)
    exact hpat (nField_of_matchesWord hm hmask ▸ hn)
  · obtain ⟨hmask, hpat⟩ := opcodeRows_class9 r hr (hclass ▸ hop)
    exact hn (nField_of_matchesWord hm hmask ▸ hpat)
  · obtain ⟨hmask, hpat⟩ := opcodeRows_classE r hr (hclass ▸ hop)
    exact hnn (nnField_of_matchesWord hm hmask ▸ hpat)
  · obtain ⟨hmask, hpat⟩ := opcodeRows_classF r hr (hclass ▸ hop)
    exact hnn (nnField_of_matchesWord hm hmask ▸ hpat)

theorem wellFormedWord_of_illegal (hd : decodeWord w = none) : wellFormedWord w = false :=
  List.any_eq_false.mpr (not_matchesWord_of_illegal hd)

end Sys2Proof

open Sys2Proof

/-- Settles O4: any two rows fix some bit differently. -/
theorem noWordMatchesTwoRows : Obligations.NoWordMatchesTwoRows :=
  ⟨rfl, opcodeRows_filter_length_le_one⟩

/-- Settles O3: a legal word is the encoding of its instruction, which its row matches; an illegal one matches
no row. -/
theorem decoderAgreesWithOpcodeMap : Obligations.DecoderAgreesWithOpcodeMap := by
  intro w
  cases hd : decodeWord w with
  | none => exact ⟨(wellFormedWord_of_illegal hd).symm, nofun⟩
  | some i =>
    obtain rfl := decodeWord_eq_some_iff.mp hd
    refine ⟨(wellFormedWord_encode i).symm, fun j hj => ?_⟩
    cases hj
    exact matchesWord_iff.mp (row_matchesWord_encode i)

/-- Settles O6: ten fixed words, run through the decoder. -/
theorem sampleWordsDecode : Obligations.SampleWordsDecode := by
  unfold Obligations.SampleWordsDecode
  decide

end

section
/-!
SUPPORT. One step, move by move (48_frame_sequencer_and_host.md rules R190, R193, R203), and the cycle of a word that
decodes.
-/
namespace Sys2Proof.Machine

variable {s t : State} {i : Instr} {left : Nat} {op : HostOp} {rest : List HostOp}

theorem cycle_eq_exec (hf : s.fault = none) (hpc : s.pc.toNat ≤ 0xFFE)
    (hd : decode [s.readByte s.pc.toNat, s.readByte (s.pc.toNat + 1)] = .ok (i, [])) :
    cycle s = exec i s.advancePc := by
  rw [cycle_eq_dispatchBytes hf (Nat.succ_lt_succ (Nat.lt_succ_of_le hpc)) rfl rfl, dispatchBytes, hd]

/-! ### The move a step performs -/

theorem step_inFrame (hl : s.frameLeft = left + 1) : step s = frameCycle left s := by
  simp [step, sessionMove, hl]

theorem step_queued (hl : s.frameLeft = 0) (hq : s.hostOps = op :: rest) :
    step s = hostMove op { s with hostOps := rest } := by
  simp [step, sessionMove, hl, hq]

theorem step_freeRunning (hl : s.frameLeft = 0) (hq : s.hostOps = []) (hload : s.loaded = true) :
    step s = beginFrame s := by
  simp [step, sessionMove, hl, hq, hload]

theorem ifRunnable_of_loaded (hload : s.loaded = true) (k : State → Result) : ifRunnable s k = k s := by
  simp [ifRunnable, hload]

theorem step_executeFrame (hl : s.frameLeft = 0) (hq : s.hostOps = .executeFrame :: rest) (hload : s.loaded = true) :
    step s = beginFrame { s with hostOps := rest } :=
  (step_queued hl hq).trans (ifRunnable_of_loaded (s := { s with hostOps := rest }) hload beginFrame)

theorem step_executeOneCycle (hl : s.frameLeft = 0) (hq : s.hostOps = .executeOneCycle :: rest)
    (hload : s.loaded = true) : step s = executeOneCycle { s with hostOps := rest } :=
  (step_queued hl hq).trans (ifRunnable_of_loaded (s := { s with hostOps := rest }) hload executeOneCycle)

/-! ### The move around its cycle -/

theorem frameCycle_of_cycle (hfps : 1 ≤ s.cfgFps) (hc : cycle s = .next t) :
    frameCycle left s = .next (afterCycle left t) := by
  simp [frameCycle, hc, Nat.ne_of_gt hfps]

theorem beginFrame_of_cycle (hf : s.fault = none) (hfps : 1 ≤ s.cfgFps) (hb : s.budget = left + 1)
    (hc : cycle s = .next t) : beginFrame s = .next (afterCycle left t) := by
  simp [beginFrame, hf, hb, frameCycle_of_cycle hfps hc, Nat.ne_of_gt hfps]

theorem executeOneCycle_of_cycle (hc : cycle s = .next t) :
    executeOneCycle s =
      .next { t with reply := some (match t.fault with | some f => .fault f | none => .ok) } := by
  rw [executeOneCycle, hc]
  rfl

end Sys2Proof.Machine

open Sys2Proof Sys2Proof.Machine

/-- Settles O46: each of the four moves is one cycle with its own work around it, and the cycle is the decoded
instruction. -/
theorem stepRunsTheDecodedInstruction : Obligations.StepRunsTheDecodedInstruction := by
  intro s i left rest hf hpc hd
  have hcycle : cycle s = exec i s.advancePc := cycle_eq_exec hf hpc hd
  have hqueued : cycle { s with hostOps := rest } = exec i { s with pc := s.pc + 2, hostOps := rest } :=
    cycle_eq_exec (s := { s with hostOps := rest }) hf hpc hd
  refine ⟨hcycle, fun t hx hfps hl => ?_, fun t hx hfps hl hq hload hb => ?_, fun t hx hfps hl hq hload hb => ?_,
    fun t hx hl hq hload => ?_⟩
  · rw [step_inFrame hl]
    exact frameCycle_of_cycle hfps (hcycle.trans hx)
  · rw [step_executeFrame hl hq hload]
    exact beginFrame_of_cycle hf hfps hb (hqueued.trans hx)
  · rw [step_freeRunning hl hq hload]
    exact beginFrame_of_cycle hf hfps hb (hcycle.trans hx)
  · rw [step_executeOneCycle hl hq hload]
    exact executeOneCycle_of_cycle (hqueued.trans hx)

end

section
/-!
SUPPORT. Control transfer (40_control_flow.md rules R101 to R104): what CALL and RET answer inside the stack's bounds,
and the frame of a jump.
-/
namespace Sys2Proof.Machine

variable {s : State}

theorem exec_call_of_free (nnn : Addr12) (hfree : s.sp.val < Config.stackDepth) :
    exec (.call nnn) s = .next ((s.pushPc hfree).setPc (zextAddr nnn)) := dif_pos hfree

theorem exec_ret_of_live (hlive : 0 < s.sp.val) : exec .ret s = .next (s.popPc hlive) := dif_pos hlive

/-- CALL fills the first free slot. -/
theorem State.pushPc_stack_same (hfree : s.sp.val < Config.stackDepth) :
    (s.pushPc hfree).stack[s.sp.val] = s.pc := by
  rw [State.pushPc_stack, Vector.getElem_set_self]

/-- CALL keeps every other slot, live or not. -/
theorem State.pushPc_stack_ne (hfree : s.sp.val < Config.stackDepth) {k : Nat} (hk : k < Config.stackDepth)
    (hne : k ≠ s.sp.val) : (s.pushPc hfree).stack[k] = s.stack[k] := by
  rw [State.pushPc_stack, Vector.getElem_set_ne hfree hk hne.symm]

/-- A jump writes `pc` alone. -/
theorem setPc_sameBut (s : State) (v : Word) : SameBut noReg noByte [.pc] s (s.setPc v) :=
  (SameBut.refl _ _ _ s).setPc v

/-- The sum of R104 fits in 16 bits: BNNN loads it whole. -/
theorem jpV0_target_toNat (nnn : Addr12) (v : Byte) :
    (BitVec.ofNat 16 ((nnn.toNat + v.toNat) % 65536)).toNat = nnn.toNat + v.toNat := by
  rw [BitVec.toNat_ofNat]; omega

end Sys2Proof.Machine

open Sys2Proof Sys2Proof.Machine

/-- Settles O17: CALL is one push of the advanced `pc`, then a jump. -/
theorem callSavesReturnAddress : Obligations.CallSavesReturnAddress := by
  intro nnn s hfree
  have start := SameBut.refl noReg noByte [.slots, .sp, .pc] s
  exact ⟨decodeWord_encode (.call nnn), _, exec_call_of_free nnn hfree, State.pushPc_stack_same hfree, rfl,
    zextAddr_toNat nnn, fun _ hk hne => State.pushPc_stack_ne hfree hk hne,
    (start.pushPc hfree).setPc _⟩

/-- Settles O18: RET is one pop, which writes no slot. -/
theorem returnTakesNewestAddress : Obligations.ReturnTakesNewestAddress := by
  intro s hlive
  have start := SameBut.refl noReg noByte [.sp, .pc] s
  exact ⟨decodeWord_encode .ret, _, exec_ret_of_live hlive, rfl, rfl, start.popPc hlive⟩

/-- Settles O16: both jumps write `pc` alone; 0xFFF + 0xFF, the furthest BNNN reaches, is 0x10FE. -/
theorem jumpsLoadTheirTarget : Obligations.JumpsLoadTheirTarget := by
  intro nnn s
  refine ⟨⟨decodeWord_encode (.jp nnn), _, rfl, ?_⟩, decodeWord_encode (.jpV0 nnn), _, rfl, ?_⟩
  · exact ⟨zextAddr_toNat nnn, setPc_sameBut s _⟩
  · exact ⟨jpV0_target_toNat nnn _, jpV0_target_le nnn _, setPc_sameBut s _⟩

end

section
/-!
SUPPORT. The conditional skips (41_skips.md rules R110 to R114): what the shared skip leaves in `pc`, whichever
comparison decides it, and its frame.
-/
namespace Sys2Proof.Machine

/-- A skip, taken or not, writes `pc` alone. -/
theorem skipIf_sameBut (s : State) (c : Bool) : SameBut noReg noByte [.pc] s (s.skipIf c) :=
  (SameBut.refl _ _ _ s).skipIf c

/-- R114 over the naturals: the test `c` may decide any comparison `p` of the instruction's. -/
theorem State.skipIf_pc_toNat (s : State) {c : Bool} {p : Prop} [Decidable p] (hc : c = true ↔ p) :
    (s.skipIf c).pc.toNat = if p then (s.pc.toNat + 2) % 65536 else s.pc.toNat := by
  simp only [State.skipIf_pc, hc]
  split
  · exact BitVec.toNat_add s.pc 2
  · rfl

end Sys2Proof.Machine

open Sys2Proof Sys2Proof.Machine

/-- Settles O14: both are the skip of R114, on `==` and on `!=` with the byte. -/
theorem immediateSkipsCompareForEquality : Obligations.ImmediateSkipsCompareForEquality := by
  intro x nn s
  refine ⟨⟨decodeWord_encode (.seImm x nn), _, rfl, skipIf_sameBut s _, ?_⟩,
    decodeWord_encode (.sneImm x nn), _, rfl, skipIf_sameBut s _, ?_⟩
  · exact s.skipIf_pc_toNat beq_iff_eq
  · exact s.skipIf_pc_toNat bne_iff_ne

/-- Settles O15: both are the skip of R114, on `==` and on `!=` of the two registers. -/
theorem registerSkipsCompareForEquality : Obligations.RegisterSkipsCompareForEquality := by
  intro x y s
  refine ⟨⟨decodeWord_encode (.seReg x y), _, rfl, skipIf_sameBut s _, ?_⟩,
    decodeWord_encode (.sneReg x y), _, rfl, skipIf_sameBut s _, ?_⟩
  · exact s.skipIf_pc_toNat beq_iff_eq
  · exact s.skipIf_pc_toNat bne_iff_ne

end

section
/-!
SUPPORT. The ALU (42_alu.md): the results and flags of R126 to R132 as plain arithmetic, and what a register write, an
operation with no flag and a flag-writing operation leave in the register file.
-/
namespace Sys2Proof.Machine

variable {s : State} {x y : RegIdx}

/-! ### Results and flags -/

theorem addMod_eq_add (a b : Byte) : addMod a b = a + b :=
  BitVec.eq_of_toNat_eq (by rw [addMod, BitVec.toNat_ofNat, BitVec.toNat_add]; omega)

theorem subMod_eq_sub (a b : Byte) : subMod a b = a - b :=
  BitVec.eq_of_toNat_eq (by rw [subMod, BitVec.toNat_ofNat, BitVec.toNat_sub]; omega)

theorem shiftRight1_toNat (a : Byte) : (shiftRight1 a).toNat = a.toNat / 2 := by
  rw [shiftRight1, BitVec.toNat_ofNat]; omega

theorem shiftLeft1_toNat (a : Byte) : (shiftLeft1 a).toNat = a.toNat * 2 % 256 := by
  rw [shiftLeft1, BitVec.toNat_ofNat]; omega

theorem shiftRight1_eq (a : Byte) : shiftRight1 a = a >>> 1 :=
  BitVec.eq_of_toNat_eq (by rw [shiftRight1_toNat, BitVec.toNat_ushiftRight, Nat.shiftRight_eq_div_pow, pow_one])

theorem shiftLeft1_eq (a : Byte) : shiftLeft1 a = a <<< 1 :=
  BitVec.eq_of_toNat_eq (by rw [shiftLeft1_toNat, BitVec.toNat_shiftLeft, Nat.shiftLeft_eq, pow_one])

theorem addMod_toNat (a b : Byte) : (addMod a b).toNat = (a.toNat + b.toNat) % 256 := by
  rw [addMod_eq_add, BitVec.toNat_add]

/-- R132 over the integers: the remainder of a negative difference is the wrapped one. -/
theorem subMod_toNat (a b : Byte) : ((subMod a b).toNat : Int) = (a.toNat - b.toNat : Int) % 256 := by
  rw [subMod, BitVec.toNat_ofNat]; omega

theorem b2n_decide (p : Prop) [Decidable p] : b2n (decide p) = if p then 1 else 0 := by
  simp only [b2n, decide_eq_true_eq]

theorem b2n_toNat (c : Bool) : (b2n c).toNat = c.toNat := by cases c <;> rfl

/-- A flag that is a bit of an operand, as a number (R128, R130). -/
theorem b2n_getLsbD_toNat (a : Byte) (k : Nat) : (b2n (a.getLsbD k)).toNat = a.toNat / 2 ^ k % 2 :=
  (b2n_toNat _).trans (Nat.toNat_testBit _ _)

/-! ### Operations with no flag -/

/-- A register write changes that register alone. -/
theorem setV_sameBut (s : State) (x : RegIdx) (v : Byte) : SameBut (· = x) noByte [] s (s.setV x v) :=
  (SameBut.refl (· = x) noByte [] s).setV rfl v

theorem State.getV_aluNoFlag (s : State) (x : RegIdx) (f : Byte → Byte → Byte) (b : Byte) :
    (s.aluNoFlag x f b).getV x = f (s.getV x) b := State.getV_setV_same s x _

/-- An operation that acts bit by bit does so on V[x] and its other operand. -/
theorem State.getLsbD_aluNoFlag (s : State) (x : RegIdx) {f : Byte → Byte → Byte} {g : Bool → Bool → Bool}
    (hfg : ∀ a b k, (f a b).getLsbD k = g (a.getLsbD k) (b.getLsbD k)) (b : Byte) (k : Nat) :
    ((s.aluNoFlag x f b).getV x).getLsbD k = g ((s.getV x).getLsbD k) (b.getLsbD k) := by
  rw [State.getV_aluNoFlag, hfg]

/-! ### Operations with a flag -/

/-- A flag-writing operation changes V[x] and VF alone. -/
theorem aluWithFlag_sameBut (s : State) (op : FlagOp) (x y : RegIdx) :
    SameBut (fun i => i = x ∨ i = Config.flagReg) noByte [] s (s.aluWithFlag op x y) :=
  (SameBut.refl _ _ _ s).aluWithFlag (.inl rfl) (.inr rfl) op y

/-- What R131 says `t` holds in V[x] and VF after the result `r` and the flag `f` were written over `s` in an order. -/
def FollowsOrder (order : VfAliasOrder) (r : Byte → Byte → Byte) (f : Byte → Byte → Bool) (x y : RegIdx)
    (s t : State) : Prop :=
  let flag := b2n (f (s.getV x) (s.getV y))
  match order with
  | .flagLast => t.getV Config.flagReg = flag ∧ (x ≠ Config.flagReg → t.getV x = r (s.getV x) (s.getV y))
  | .resultLast => t.getV x = r (s.getV x) (s.getV y) ∧ (x ≠ Config.flagReg → t.getV Config.flagReg = flag)
  | .flagFirstReread =>
    t.getV x = r (if x = Config.flagReg then flag else s.getV x) (if y = Config.flagReg then flag else s.getV y) ∧
      (x ≠ Config.flagReg → t.getV Config.flagReg = flag)

theorem State.writeInOrder_followsOrder (s : State) (order : VfAliasOrder) (op : FlagOp) (x y : RegIdx) :
    FollowsOrder order (aluResult op) (aluFlag op) x y s (s.writeInOrder order op x y) := by
  cases order with
  | flagLast =>
    exact ⟨State.getV_setV_same .., fun hx => (State.getV_setV_ne _ hx _).trans (State.getV_setV_same ..)⟩
  | resultLast =>
    exact ⟨State.getV_setV_same .., fun hx => (State.getV_setV_ne _ hx.symm _).trans (State.getV_setV_same ..)⟩
  | flagFirstReread =>
    refine ⟨?_, fun hx => (State.getV_setV_ne _ hx.symm _).trans (State.getV_setV_same ..)⟩
    rw [writeInOrder, State.getV_setV_same, State.getV_setV, State.getV_setV]

/-- With no field 0xF the order is the nominal one, the flag last. -/
theorem State.aluWithFlag_followsFlagLast (op : FlagOp) (hx : x ≠ Config.flagReg) (hy : y ≠ Config.flagReg) :
    FollowsOrder .flagLast (aluResult op) (aluFlag op) x y s (s.aluWithFlag op x y) := by
  rw [show s.aluWithFlag op x y = s.writeInOrder .flagLast op x y from if_pos ⟨hx, hy⟩]
  exact s.writeInOrder_followsOrder _ op x y

/-- With a field 0xF the order is the open parameter, whatever function `r` the operation's result is written as. -/
theorem State.aluWithFlag_followsParameter (op : FlagOp) {r : Byte → Byte → Byte}
    (hr : ∀ a b, aluResult op a b = r a b) (halias : x = Config.flagReg ∨ y = Config.flagReg) :
    FollowsOrder Config.vfAliasOrder r (aluFlag op) x y s (s.aluWithFlag op x y) := by
  obtain rfl : aluResult op = r := funext₂ hr
  rw [show s.aluWithFlag op x y = s.writeInOrder Config.vfAliasOrder op x y from
    if_neg fun ⟨hx, hy⟩ => halias.elim hx hy]
  exact s.writeInOrder_followsOrder _ op x y

theorem State.getV_aluWithFlag_result (op : FlagOp) (hx : x ≠ Config.flagReg) (hy : y ≠ Config.flagReg) :
    (s.aluWithFlag op x y).getV x = aluResult op (s.getV x) (s.getV y) :=
  (State.aluWithFlag_followsFlagLast op hx hy).2 hx

theorem State.getV_aluWithFlag_flag (op : FlagOp) (hx : x ≠ Config.flagReg) (hy : y ≠ Config.flagReg) :
    (s.aluWithFlag op x y).getV Config.flagReg = b2n (aluFlag op (s.getV x) (s.getV y)) :=
  (State.aluWithFlag_followsFlagLast op hx hy).1

end Sys2Proof.Machine

open Sys2Proof Sys2Proof.Machine

/-- Settles O7: both are one write of V[x]. -/
theorem loadsCopyTheirSource : Obligations.LoadsCopyTheirSource := by
  intro x y nn s
  refine ⟨⟨decodeWord_encode (.ldImm x nn), _, rfl, ?_, setV_sameBut s x _⟩,
    decodeWord_encode (.ldReg x y), _, rfl, ?_, setV_sameBut s x _⟩
  · exact State.getV_setV_same s x nn
  · exact State.getV_setV_same s x _

/-- Settles O8: one write of V[x], so VF keeps its value when the sum exceeds 255. -/
theorem addImmediateWrapsAndSetsNoFlag : Obligations.AddImmediateWrapsAndSetsNoFlag := by
  intro x nn s
  refine ⟨decodeWord_encode (.addImm x nn), _, rfl, ?_, setV_sameBut s x _⟩
  rw [State.getV_aluNoFlag, addMod_toNat]

/-- Settles O9: each is one write of V[x] with an operation that acts bit by bit. -/
theorem logicInstructionsLeaveFlagAlone : Obligations.LogicInstructionsLeaveFlagAlone := by
  intro x y s
  refine ⟨⟨decodeWord_encode (.orReg x y), _, rfl, setV_sameBut s x _, ?_⟩,
    ⟨decodeWord_encode (.andReg x y), _, rfl, setV_sameBut s x _, ?_⟩,
    decodeWord_encode (.xorReg x y), _, rfl, setV_sameBut s x _, ?_⟩
  · exact s.getLsbD_aluNoFlag x (fun _ _ _ => BitVec.getLsbD_or) (s.getV y)
  · exact s.getLsbD_aluNoFlag x (fun _ _ _ => BitVec.getLsbD_and) (s.getV y)
  · exact s.getLsbD_aluNoFlag x (fun _ _ _ => BitVec.getLsbD_xor) (s.getV y)

/-- Settles O10: the flag is the test of the sum before it wraps. -/
theorem addSetsCarry : Obligations.AddSetsCarry := by
  intro x y s hx hy
  refine ⟨decodeWord_encode (.addReg x y), _, rfl, ?_, ?_, aluWithFlag_sameBut s .add x y⟩
  · rw [State.getV_aluWithFlag_result .add hx hy]
    exact addMod_toNat _ _
  · rw [State.getV_aluWithFlag_flag .add hx hy]
    exact b2n_decide _

/-- Settles O11: SUBN is SUB with the operands exchanged. -/
theorem subtractSetsNoBorrow : Obligations.SubtractSetsNoBorrow := by
  intro x y s hx hy
  refine ⟨⟨decodeWord_encode (.sub x y), _, rfl, ?_, ?_, aluWithFlag_sameBut s .sub x y⟩,
    decodeWord_encode (.subn x y), _, rfl, ?_, ?_, aluWithFlag_sameBut s .subn x y⟩
  · rw [State.getV_aluWithFlag_result .sub hx hy]
    exact subMod_toNat _ _
  · rw [State.getV_aluWithFlag_flag .sub hx hy]
    exact b2n_decide _
  · rw [State.getV_aluWithFlag_result .subn hx hy]
    exact subMod_toNat _ _
  · rw [State.getV_aluWithFlag_flag .subn hx hy]
    exact b2n_decide _

/-- Settles O12: a shift is a flag-writing operation on V[x] alone, whatever y is; its flag is bit 0 or bit 7. -/
theorem shiftsAreInPlaceAndSetBitShiftedOut : Obligations.ShiftsAreInPlaceAndSetBitShiftedOut := by
  intro x y s hx
  refine ⟨⟨decodeWord_encode (.shr x y), _, rfl, ?_, ?_, aluWithFlag_sameBut s .shr x x⟩,
    decodeWord_encode (.shl x y), _, rfl, ?_, ?_, aluWithFlag_sameBut s .shl x x⟩
  · rw [State.getV_aluWithFlag_result .shr hx hx]
    exact shiftRight1_toNat _
  · rw [State.getV_aluWithFlag_flag .shr hx hx, aluFlag, b2n_getLsbD_toNat, pow_zero, Nat.div_one]
  · rw [State.getV_aluWithFlag_result .shl hx hx]
    exact shiftLeft1_toNat _
  · rw [State.getV_aluWithFlag_flag .shl hx hx, aluFlag, b2n_getLsbD_toNat]
    omega

/-- Settles O13: with a field 0xF each of the five is `State.writeInOrder` in the parameter's order. -/
theorem vfAliasFollowsTheParameter : Obligations.VfAliasFollowsTheParameter := by
  intro x y s
  refine ⟨fun h => ⟨?add, ?sub, ?subn⟩, fun hx => ⟨?shr, ?shl⟩⟩
  case add =>
    exact ⟨_, rfl, aluWithFlag_sameBut s .add x y, State.aluWithFlag_followsParameter .add addMod_eq_add h⟩
  case sub =>
    exact ⟨_, rfl, aluWithFlag_sameBut s .sub x y, State.aluWithFlag_followsParameter .sub subMod_eq_sub h⟩
  case subn =>
    exact ⟨_, rfl, aluWithFlag_sameBut s .subn x y,
      State.aluWithFlag_followsParameter .subn (fun a b => subMod_eq_sub b a) h⟩
  case shr =>
    exact ⟨_, rfl, aluWithFlag_sameBut s .shr x x,
      State.aluWithFlag_followsParameter .shr (fun a _ => shiftRight1_eq a) (.inl hx)⟩
  case shl =>
    exact ⟨_, rfl, aluWithFlag_sameBut s .shl x x,
      State.aluWithFlag_followsParameter .shl (fun a _ => shiftLeft1_eq a) (.inl hx)⟩

end

section
/-!
SUPPORT. The address register and memory (43_index_and_memory.md rules R140 to R145): the addresses loaded over the
naturals; the stored digits; the load of a register block, and the load of a stored one.
-/
namespace Sys2Proof.Machine

variable {s : State} {x : RegIdx} {v : Byte}

/-! ### The address register -/

/-- A load of the address register writes `I` alone. -/
theorem setI_sameBut (s : State) (a : Word) : SameBut noReg noByte [.addrReg] s (s.setI a) :=
  (SameBut.refl _ _ _ s).setI a

/-- The glyph address of any byte, a digit or not, fits in 16 bits. -/
theorem glyphAddr_toNat {d : Nat} (hd : d < 256) : (glyphAddr d).toNat = 0x050 + 5 * d :=
  Nat.mod_eq_of_lt (show 0x050 + 5 * d < 65536 by omega)

theorem fontAddr_toNat_of_digit (p : FontHighNibble) (hv : v.toNat ≤ 0x0F) :
    (fontAddr p v).toNat = 0x050 + 5 * v.toNat := by
  rw [fontAddr.eq_def, if_pos hv, glyphAddr_toNat v.isLt]

theorem fontAddr_mask_toNat (hv : ¬ v.toNat ≤ 0x0F) : (fontAddr .mask v).toNat = 0x050 + 5 * (v.toNat % 16) := by
  rw [fontAddr, if_neg hv, glyphAddr_toNat (by omega)]

theorem fontAddr_nomask_toNat (hv : ¬ v.toNat ≤ 0x0F) : (fontAddr .nomask v).toNat = 0x050 + 5 * v.toNat := by
  rw [fontAddr, if_neg hv, glyphAddr_toNat v.isLt]

/-! ### A run of bytes at `I`, and the three digits -/

/-- A run of bytes stored at `I` changes those bytes alone. -/
theorem writeBytes_sameBut (s : State) {bs : List Byte} {n : Nat} (hlen : bs.length = n) :
    SameBut noReg (bytesFrom (s.addrI 0) n) [] s (s.setMem (Mem.writeBytes s.mem (s.addrI 0) bs)) :=
  (SameBut.refl _ _ _ s).writeBytes hlen

/-- FX33 whose highest address is within memory takes no fault: it writes the digits. -/
theorem exec_ldBcd_inside (hin : s.I.toNat + 2 ≤ 0xFFF) :
    exec (.ldBcd x) s = .next (s.setMem (Mem.writeBytes s.mem (s.addrI 0) (bcdDigits (s.getV x)))) :=
  checkAddr_inside (kind := .write) (Nat.lt_succ_of_le hin) s
    fun s => .next (s.setMem (Mem.writeBytes s.mem (s.addrI 0) (bcdDigits (s.getV x))))

/-- The digits are exact: each fits in its byte (R143). -/
theorem bcdDigits_toNat (v : Byte) :
    (bcdDigits v)[0].toNat = v.toNat / 100 ∧ (bcdDigits v)[1].toNat = v.toNat / 10 % 10 ∧
      (bcdDigits v)[2].toNat = v.toNat % 10 := by
  refine ⟨?hundreds, ?tens, ?units⟩
  all_goals exact Nat.mod_eq_of_lt (by omega)

/-- Each stored digit is read back at its own address. -/
theorem read_storedDigit (hmem : MemCanonical s) (hin : s.I.toNat + 2 ≤ 0xFFF) (v : Byte) (k : Fin 3) :
    Mem.read (Mem.writeBytes s.mem (s.addrI 0) (bcdDigits v)) (s.addrI k) = (bcdDigits v)[k] :=
  Mem.read_writeBytes_inside hmem (s.addrI 0) (bcdDigits v) (Nat.succ_le_succ hin) k.isLt

/-- FX33 within memory leaves the digits of V[x], as numbers, in the three bytes from `I` on, and changes no other. -/
theorem exec_ldBcd_digits (hmem : MemCanonical s) (hin : s.I.toNat + 2 ≤ 0xFFF) :
    ∃ t, exec (.ldBcd x) s = .next t ∧ (t.readByte s.I.toNat).toNat = (s.getV x).toNat / 100 ∧
      (t.readByte (s.I.toNat + 1)).toNat = (s.getV x).toNat / 10 % 10 ∧
      (t.readByte (s.I.toNat + 2)).toNat = (s.getV x).toNat % 10 ∧ SameBut noReg (bytesFrom (s.addrI 0) 3) [] s t := by
  obtain ⟨hundreds, tens, units⟩ := bcdDigits_toNat (s.getV x)
  have hread (k : Fin 3) := congrArg BitVec.toNat (read_storedDigit hmem hin (s.getV x) k)
  exact ⟨_, exec_ldBcd_inside hin, (hread 0).trans hundreds, (hread 1).trans tens, (hread 2).trans units,
    writeBytes_sameBut s (bcdDigits_length _)⟩

/-! ### The load of a register block -/

/-- FX65 whose highest address is within memory takes no fault: it loads the block of registers. -/
theorem exec_loadRegs_inside (hin : s.I.toNat + x.toNat ≤ 0xFFF) :
    exec (.loadRegs x) s = .next (s.setRegs (s.regsFromMem x)) :=
  checkAddr_inside (kind := .read) (Nat.lt_succ_of_le hin) s fun s => .next (s.setRegs (s.regsFromMem x))

/-- A load changes V0 to Vx alone. -/
theorem regsFromMem_sameBut (s : State) (x : RegIdx) :
    SameBut (fun i => i.toNat ≤ x.toNat) noByte [] s (s.setRegs (s.regsFromMem x)) :=
  (SameBut.refl _ _ _ s).setRegs fun i hi => (s.regsFromMem_get x i).trans (if_neg hi)

/-- Loading what was stored at the same `I` gives the stored registers back, whatever the registers hold by then. -/
theorem getV_load_storedRegs (hmem : MemCanonical s) (hin : s.I.toNat + x.toNat ≤ 0xFFF) (V : Vector Byte 16)
    (i : RegIdx) :
    let t := (s.setMem (Mem.writeBytes s.mem (s.addrI 0) (s.regBlock x))).setRegs V
    (t.setRegs (t.regsFromMem x)).getV i = if i.toNat ≤ x.toNat then s.getV i else t.getV i := by
  intro t
  rw [State.regsFromMem_get]
  split
  case isTrue hix => exact read_storedRegs hmem hin hix
  case isFalse => rfl

end Sys2Proof.Machine

open Sys2Proof Sys2Proof.Machine

/-- Settles O22: the bytes stored are the digits of V[x], and a byte has at most two hundreds. -/
theorem bcdStoresThreeDigits : Obligations.BcdStoresThreeDigits := by
  intro x s hmem hin
  obtain ⟨t, ht, hundreds, tens, units, hframe⟩ := exec_ldBcd_digits (x := x) hmem hin
  exact ⟨decodeWord_encode (.ldBcd x), t, ht, by omega, by omega, by omega, by omega, hframe⟩

/-- Settles O23: FX55 is one write of the block V0 to Vx. -/
theorem storeRegistersInclusive : Obligations.StoreRegistersInclusive := by
  intro x s hmem hin
  exact ⟨decodeWord_encode (.storeRegs x), _, exec_storeRegs_inside hin, fun _ hix => read_storedRegs hmem hin hix,
    writeBytes_sameBut s (s.regBlock_length x)⟩

/-- Settles O24: FX65 replaces V0 to Vx by the bytes from I on. -/
theorem loadRegistersInclusive : Obligations.LoadRegistersInclusive := by
  intro x s hin
  exact ⟨decodeWord_encode (.loadRegs x), _, exec_loadRegs_inside hin,
    fun i hix => (s.regsFromMem_get x i).trans (if_pos hix), regsFromMem_sameBut s x⟩

/-- Settles O26: I is kept, so the load reads the bytes the store wrote. -/
theorem storeThenLoadRestoresRegisters : Obligations.StoreThenLoadRestoresRegisters := by
  intro x s V hmem hin
  exact ⟨_, _, exec_storeRegs_inside hin, exec_loadRegs_inside (s := State.setRegs _ V) hin,
    getV_load_storedRegs hmem hin V⟩

/-- Settles O20: both write I alone, FX1E with the sum cut to 16 bits. -/
theorem addressRegisterLoadAndAdd : Obligations.AddressRegisterLoadAndAdd := by
  intro nnn x s
  refine ⟨⟨decodeWord_encode (.ldI nnn), _, rfl, ?load, setI_sameBut s _⟩,
    decodeWord_encode (.addI x), _, rfl, ?add, setI_sameBut s _⟩
  case load => exact zextAddr_toNat nnn
  case add => exact Nat.mod_mod _ 65536

/-- Settles O21: a digit has one glyph address; above 0x0F the two values of the parameter give one each. -/
theorem glyphAddressOfDigit : Obligations.GlyphAddressOfDigit := by
  intro x s
  refine ⟨decodeWord_encode (.ldFont x), _, rfl, setI_sameBut s _, ?_⟩
  rw [State.setI_I]
  generalize Config.fontHighNibble = p
  split
  case isTrue hv => exact fontAddr_toNat_of_digit p hv
  case isFalse hv =>
    cases p with
    | mask => exact fontAddr_mask_toNat hv
    | nomask => exact fontAddr_nomask_toNat hv

end

section
/-!
SUPPORT. CXNN (44_random.md rules R150 and R151): the masked draw and its frame.
-/
namespace Sys2Proof.Machine

/-- The draw moves the counter on and writes V[x], and changes nothing else. -/
theorem nextDraw_setV_sameBut (s : State) (x : RegIdx) (v : Byte) :
    SameBut (· = x) noByte [.draws] s (s.nextDraw.setV x v) :=
  (SameBut.refl (· = x) noByte [.draws] s).nextDraw.setV rfl v

end Sys2Proof.Machine

open Sys2Proof Sys2Proof.Machine

/-- Settles O28: V[x] is the free byte of this index under the mask, so masking it again keeps it. -/
theorem randomByteIsMasked : Obligations.RandomByteIsMasked := by
  intro x nn s
  have hread : (s.nextDraw.setV x (Config.randomByte s.draws &&& nn)).getV x = Config.randomByte s.draws &&& nn :=
    State.getV_setV_same s.nextDraw x _
  refine ⟨decodeWord_encode (.rnd x nn), _, rfl, hread, ?masked, rfl, nextDraw_setV_sameBut s x _⟩
  case masked => rw [hread, BitVec.and_assoc, BitVec.and_self]

end

section
/-!
SUPPORT. The whole sprite on the display (45_display.md rules R161, R162): each sprite row lands on a display row of its
own, so the rows add up cell by cell to one exclusive-or. Then what DXYN answers when no coordinate is VF, and what a
second draw does to the first.
-/
namespace Sys2Proof.Machine

variable {s t u : State} {x0 y0 : Byte} {x y : RegIdx}

/-- The row of the sprite, counted with wrap from y0, that lands on display row cy. -/
def rowOf (y0 : Byte) (cy : Fin 32) : Nat := (cy.val + 32 - y0.toNat % 32) % 32

/-- A row below 32 lands on one display row only. -/
theorem rowOf_eq_iff (y0 : Byte) (cy : Fin 32) {k : Nat} (hk : k < 32) : rowOf y0 cy = k ↔ cy = spriteRow y0 k := by
  rw [Fin.ext_iff]
  simp only [rowOf, spriteRow, Fin.val_ofNat]
  have := cy.isLt
  omega

/-! ### The sprite, row by row -/

theorem spriteLit_eq (s : State) (x0 y0 : Byte) (n : Nat) (cx : Fin 64) (cy : Fin 32) :
    spriteLit s x0 y0 n cx cy = (decide (colOf x0 cx < 8) && decide (rowOf y0 cy < n) &&
      spriteBit (s.readByte (s.addrI (rowOf y0 cy))) (colOf x0 cx)) := rfl

theorem spriteLit_zero (s : State) (x0 y0 : Byte) (cx : Fin 64) (cy : Fin 32) :
    spriteLit s x0 y0 0 cx cy = false := by
  simp [spriteLit_eq]

/-- Row k is not yet part of a sprite of k rows. -/
theorem spriteLit_spriteRow_self (s : State) (x0 y0 : Byte) {k : Nat} (hk : k < 32) (cx : Fin 64) :
    spriteLit s x0 y0 k cx (spriteRow y0 k) = false := by
  simp [spriteLit_eq, (rowOf_eq_iff y0 _ hk).mpr rfl]

/-- Row k of a sprite of k + 1 rows is the byte at `I + k`. -/
theorem spriteLit_succ_spriteRow (s : State) (x0 y0 : Byte) {k : Nat} (hk : k < 32) (cx : Fin 64) :
    spriteLit s x0 y0 (k + 1) cx (spriteRow y0 k) =
      (decide (colOf x0 cx < 8) && spriteBit (s.readByte (s.addrI k)) (colOf x0 cx)) := by
  simp [spriteLit_eq, (rowOf_eq_iff y0 _ hk).mpr rfl]

/-- The next row of the sprite adds nothing on the other display rows. -/
theorem spriteLit_succ_of_ne (s : State) (x0 : Byte) {k : Nat} (hk : k < 32) (cx : Fin 64) {cy : Fin 32}
    (hcy : cy ≠ spriteRow y0 k) : spriteLit s x0 y0 (k + 1) cx cy = spriteLit s x0 y0 k cx cy := by
  have hrow : rowOf y0 cy ≠ k := fun e => hcy ((rowOf_eq_iff y0 cy hk).mp e)
  rw [spriteLit_eq, spriteLit_eq, decide_eq_decide.mpr (show rowOf y0 cy < k + 1 ↔ rowOf y0 cy < k by omega)]

/-- A sprite of k + 1 rows collides in its first k rows or in row k. -/
theorem collides_succ (s : State) (x0 y0 : Byte) {k : Nat} (hk : k < 32) (d : Disp) :
    Collides s x0 y0 (k + 1) d ↔ Collides s x0 y0 k d ∨
      ∃ cx, colOf x0 cx < 8 ∧ spriteBit (s.readByte (s.addrI k)) (colOf x0 cx) = true ∧
        d.cell cx (spriteRow y0 k) = true := by
  constructor
  · rintro ⟨cx, cy, hlit, hcell⟩
    by_cases hcy : cy = spriteRow y0 k
    · subst hcy
      rw [spriteLit_succ_spriteRow s x0 y0 hk, Bool.and_eq_true, decide_eq_true_eq] at hlit
      exact .inr ⟨cx, hlit.1, hlit.2, hcell⟩
    · exact .inl ⟨cx, cy, (spriteLit_succ_of_ne s x0 hk cx hcy).symm.trans hlit, hcell⟩
  · rintro (⟨cx, cy, hlit, hcell⟩ | ⟨cx, hcol, hbit, hcell⟩)
    · have hcy : cy ≠ spriteRow y0 k := by
        rintro rfl
        simp [spriteLit_spriteRow_self s x0 y0 hk] at hlit
      exact ⟨cx, cy, (spriteLit_succ_of_ne s x0 hk cx hcy).trans hlit, hcell⟩
    · exact ⟨cx, _, by simp [spriteLit_succ_spriteRow s x0 y0 hk, hcol, hbit], hcell⟩

/-- The cells after the first `n` rows: exclusive-or with the sprite of `n` rows. -/
theorem drawRows_cell (s : State) (x0 y0 : Byte) (c : Disp × Bool) {n : Nat} (hn : n ≤ 32) (cx : Fin 64)
    (cy : Fin 32) :
    (drawRows s x0 y0 c n).1.cell cx cy = (c.1.cell cx cy ^^ spriteLit s x0 y0 n cx cy) := by
  induction n with
  | zero => simp [drawRows, spriteLit_zero]
  | succ k ih =>
    rw [drawRows, drawCols_cell _ _ _ _ le_rfl, ih (by omega)]
    by_cases hcy : cy = spriteRow y0 k
    · subst hcy
      simp [spriteLit_spriteRow_self s x0 y0 hn, spriteLit_succ_spriteRow s x0 y0 hn]
    · simp [hcy, spriteLit_succ_of_ne s x0 hn cx hcy]

/-- The collision after the first `n` rows: some cell under a 1 bit of the sprite was lit. -/
theorem drawRows_hit (s : State) (x0 y0 : Byte) (c : Disp × Bool) {n : Nat} (hn : n ≤ 32) :
    (drawRows s x0 y0 c n).2 = true ↔ c.2 = true ∨ Collides s x0 y0 n c.1 := by
  induction n with
  | zero => simp [drawRows, Collides, spriteLit_zero]
  | succ k ih =>
    have hbefore (cx : Fin 64) :
        (drawRows s x0 y0 c k).1.cell cx (spriteRow y0 k) = c.1.cell cx (spriteRow y0 k) := by
      simp [drawRows_cell s x0 y0 c (show k ≤ 32 by omega), spriteLit_spriteRow_self s x0 y0 hn]
    rw [drawRows, drawCols_hit _ _ _ _ le_rfl, ih (by omega), collides_succ s x0 y0 hn, or_assoc]
    simp only [hbefore]

/-! ### The draw -/

/-- A draw changes VF and the display alone. -/
theorem drawSprite_sameBut (s : State) (xy : Byte × Byte) (n : Nat) :
    SameBut (· = Config.flagReg) noByte [.display] s (s.drawSprite xy n) :=
  (SameBut.refl (· = Config.flagReg) noByte [.display] s).drawSprite rfl xy n (List.mem_singleton_self _)

theorem State.getV_drawSprite_flag (s : State) (xy : Byte × Byte) (n : Nat) :
    (s.drawSprite xy n).getV Config.flagReg = b2n (drawRows s xy.1 xy.2 (s.disp, false) n).2 := by
  rw [State.drawSprite_eq, State.getV_showDisp, State.getV_setV_same]

/-- The draw of at most 32 rows is the one exclusive-or of R161. -/
theorem drawSprite_drawn (s : State) (xy : Byte × Byte) {n : Nat} (hn : n ≤ 32) :
    Drawn xy.1 xy.2 n s (s.drawSprite xy n) := by
  have hhit : (drawRows s xy.1 xy.2 (s.disp, false) n).2 = true ↔ Collides s xy.1 xy.2 n s.disp := by
    simp [drawRows_hit s xy.1 xy.2 _ hn]
  refine ⟨drawRows_cell s xy.1 xy.2 _ hn, fun h => ?hit, fun h => ?miss, rfl, drawSprite_sameBut s xy n⟩
  case hit => rw [State.getV_drawSprite_flag, hhit.mpr h]; rfl
  case miss => rw [State.getV_drawSprite_flag, Bool.eq_false_iff.mpr (mt hhit.mp h)]; rfl

/-- DXYN with its sprite in memory takes no fault: it draws the n rows. -/
theorem exec_drw_inside {n : Nibble} (hin : SpriteInMemory s n.toNat) :
    exec (.drw x y n) s = .next (s.drawSprite (s.coordsOf x y) n.toNat) := by
  change execDrw x y n s = _
  unfold execDrw
  split
  case isTrue hzero => rw [hzero]
  case isFalse hpos =>
    obtain hzero | hlast := hin
    · exact absurd hzero hpos
    · exact checkAddr_inside (by simp only [State.addrI, Config.memSize]; omega) s _

/-- With neither field 0xF the coordinates are V[x] and V[y]. -/
theorem State.coordsOf_of_ne (s : State) (hx : x ≠ Config.flagReg) (hy : y ≠ Config.flagReg) :
    s.coordsOf x y = (s.getV x, s.getV y) := if_pos ⟨hx, hy⟩

theorem exec_drw_drawn {n : Nibble} (hx : x ≠ Config.flagReg) (hy : y ≠ Config.flagReg)
    (hin : SpriteInMemory s n.toNat) :
    ∃ t, exec (.drw x y n) s = .next t ∧ Drawn (s.getV x) (s.getV y) n.toNat s t := by
  refine ⟨_, exec_drw_inside hin, ?_⟩
  rw [s.coordsOf_of_ne hx hy]
  exact drawSprite_drawn s _ (by omega)

/-! ### The second draw -/

/-- Two displays with the same cells are the same display. -/
theorem Disp.ext_cell {d d' : Disp} (h : ∀ cx cy, d.cell cx cy = d'.cell cx cy) : d = d' :=
  Vector.ext fun i hi => Vector.ext fun j hj => h ⟨i, hi⟩ ⟨j, hj⟩

namespace Drawn

variable {n : Nat}

/-- VF is 1 exactly on a collision, and 0 exactly without one. -/
theorem flag_iff (h : Drawn x0 y0 n s t) :
    (t.getV Config.flagReg = 1 ↔ Collides s x0 y0 n s.disp) ∧
      (t.getV Config.flagReg = 0 ↔ ¬ Collides s x0 y0 n s.disp) := by
  obtain ⟨-, hhit, hmiss, -, -⟩ := h
  by_cases hc : Collides s x0 y0 n s.disp
  · rw [hhit hc]; simp [hc]
  · rw [hmiss hc]; simp [hc]

theorem addrReg_kept (h : Drawn x0 y0 n s t) : t.I = s.I := by
  obtain ⟨-, -, -, -, hframe⟩ := h
  exact hframe.part (q := .addrReg) (by decide)

theorem readByte_kept (h : Drawn x0 y0 n s t) (a : Nat) : t.readByte a = s.readByte a := by
  obtain ⟨-, -, -, -, -, hbytes, -⟩ := h
  exact hbytes a id

theorem getV_kept (h : Drawn x0 y0 n s t) (hx : x ≠ Config.flagReg) : t.getV x = s.getV x := by
  obtain ⟨-, -, -, -, hregs, -⟩ := h
  exact hregs x hx

/-- A draw leaves the sprite itself: `I` and memory are kept. -/
theorem spriteLit_kept (h : Drawn x0 y0 n s t) : spriteLit t = spriteLit s := by
  funext x0 y0 n cx cy
  simp only [spriteLit, State.addrI, h.addrReg_kept, h.readByte_kept]

theorem collides_kept (h : Drawn x0 y0 n s t) : Collides t = Collides s := by
  funext x0 y0 n d
  simp only [Collides, h.spriteLit_kept]

theorem spriteInMemory (h : Drawn x0 y0 n s t) {m : Nat} (hin : SpriteInMemory s m) : SpriteInMemory t m := by
  rwa [SpriteInMemory, h.addrReg_kept]

/-- Exclusive-or with the same sprite twice is no change (R161(d)). -/
theorem disp_eq_of_twice (h : Drawn x0 y0 n s t) (h' : Drawn x0 y0 n t u) : u.disp = s.disp := by
  have hsprite := h.spriteLit_kept
  obtain ⟨hcell, -⟩ := h
  obtain ⟨hcell', -⟩ := h'
  refine Disp.ext_cell fun cx cy => ?_
  rw [hcell', hcell, hsprite, Bool.xor_assoc, Bool.xor_self, Bool.xor_false]

end Drawn

end Sys2Proof.Machine

open Sys2Proof Sys2Proof.Machine

/-- Settles O29: 00E0 replaces the display by the clear one and writes nothing else. -/
theorem clearMakesEveryCellFalse : Obligations.ClearMakesEveryCellFalse := by
  intro s
  refine ⟨decodeWord_encode .cls, _, rfl, fun cx cy => ?cleared, rfl, (SameBut.refl _ _ _ s).showDisp clearDisp⟩
  case cleared => simp [Disp.cell, clearDisp]

/-- Settles O30: the rows of the sprite add up to one exclusive-or. -/
theorem drawIsExclusiveOrWithWrap : Obligations.DrawIsExclusiveOrWithWrap :=
  fun x y n _ hx hy hin => ⟨decodeWord_encode (.drw x y n), exec_drw_drawn hx hy hin⟩

/-- Settles O31: the first draw keeps the coordinates and the sprite, so the second is the same exclusive-or. -/
theorem drawTwiceRestoresDisplay : Obligations.DrawTwiceRestoresDisplay := by
  intro x y n s hx hy hin
  obtain ⟨t, ht, hfirst⟩ := exec_drw_drawn hx hy hin
  obtain ⟨u, hu, hsecond⟩ := exec_drw_drawn hx hy (hfirst.spriteInMemory hin)
  rw [hfirst.getV_kept hx, hfirst.getV_kept hy] at hsecond
  have hflag := hsecond.flag_iff
  rw [hfirst.collides_kept] at hflag
  have hdisp := hfirst.disp_eq_of_twice hsecond
  obtain ⟨-, -, -, hraised, -⟩ := hsecond
  exact ⟨t, u, ht, hu, hdisp, hraised, hflag⟩

end

section
/-!
SUPPORT. The keypad (46_keypad.md rules R170 to R173): what a key skip answers on each side of the index bound, what
the key wait answers with and without a held key, and its step back against the fetch's advance.
-/
namespace Sys2Proof.Machine

variable {s : State} {x : RegIdx}

/-! ### The selected key -/

theorem exec_skp (x : RegIdx) (s : State) :
    exec (.skp x) s = withKey x s fun held => .next (s.skipIf held) := rfl

theorem exec_sknp (x : RegIdx) (s : State) :
    exec (.sknp x) s = withKey x s fun held => .next (s.skipIf (!held)) := rfl

theorem withKey_of_key (hkey : (s.getV x).toNat < 16) (k : Bool → Result) :
    withKey x s k = k s.keys[(s.getV x).toNat] := dif_pos hkey

theorem withKey_of_noKey (hkey : 16 ≤ (s.getV x).toNat) (k : Bool → Result) :
    withKey x s k = .next (s.raise (.keyIndexOutOfRange (s.getV x))) := dif_neg (Nat.not_lt.mpr hkey)

/-! ### The key wait -/

theorem exec_ldVxKey_of_least {k : Nat} (hk : leastHeld s.keys = some k) :
    exec (.ldVxKey x) s = .next (s.setV x (BitVec.ofNat 8 k)) := by
  simp only [exec, execLdVxKey, hk]

theorem exec_ldVxKey_of_noKey (hk : ∀ k : Fin 16, s.keys[k] = false) :
    exec (.ldVxKey x) s = .next s.rewindPc := by
  simp only [exec, execLdVxKey, leastHeld_eq_none.mpr hk]

/-- R172's step back over the integers: it wraps below address 2. -/
theorem State.rewindPc_pc_toNat (s : State) : (s.rewindPc.pc.toNat : Int) = (s.pc.toNat - 2 : Int) % 65536 := by
  rw [State.rewindPc_pc, BitVec.toNat_sub]
  have htwo : (2 : Word).toNat = 2 := rfl
  omega

/-- The step back undoes the fetch's advance, wherever `pc` is. -/
theorem State.rewindPc_advancePc (s : State) : s.advancePc.rewindPc = s := by
  have hpc : s.pc + 2 - 2 = s.pc := BitVec.add_sub_cancel s.pc 2
  calc s.advancePc.rewindPc = s.setPc (s.pc + 2 - 2) := rfl
    _ = s := by rw [hpc]; rfl

end Sys2Proof.Machine

open Sys2Proof Sys2Proof.Machine

/-- Settles O34: the least held key is the only one with none held below it. -/
theorem keyWaitTakesLeastHeldKeyOrRewinds : Obligations.KeyWaitTakesLeastHeldKeyOrRewinds := by
  intro x s
  refine ⟨decodeWord_encode (.ldVxKey x), fun k hheld hbelow => ?held, fun hnone => ?none⟩
  case held =>
    have hleast : leastHeld s.keys = some k.val :=
      leastHeld_eq_some.mpr ⟨k.isLt, hheld, fun j hj => hbelow ⟨j, hj.trans k.isLt⟩ hj⟩
    refine ⟨_, exec_ldVxKey_of_least hleast, ?_, setV_sameBut s x _⟩
    rw [State.getV_setV_same, BitVec.toNat_ofNat]
    omega
  case none => exact ⟨_, exec_ldVxKey_of_noKey hnone, s.rewindPc_pc_toNat, setPc_sameBut s _⟩

/-- Settles O33: both are the skip of R114, on the key's state and on its negation. -/
theorem keySkipsTestTheSelectedKey : Obligations.KeySkipsTestTheSelectedKey := by
  intro x s
  refine ⟨decodeWord_encode (.skp x), decodeWord_encode (.sknp x), fun hkey => ?key, fun hnoKey => ?noKey⟩
  case key =>
    have hkey : (s.getV x).toNat < 16 := Nat.lt_succ_of_le hkey
    refine ⟨⟨_, (exec_skp x s).trans (withKey_of_key hkey _), skipIf_sameBut s _, ?_⟩,
      _, (exec_sknp x s).trans (withKey_of_key hkey _), skipIf_sameBut s _, ?_⟩
    · exact s.skipIf_pc_toNat Iff.rfl
    · exact s.skipIf_pc_toNat (Iff.of_eq (Bool.not_eq_true' _))
  case noKey =>
    exact ⟨(exec_skp x s).trans (withKey_of_noKey hnoKey _), (exec_sknp x s).trans (withKey_of_noKey hnoKey _)⟩

/-- Settles O35: the key wait's step back undoes the fetch's advance, and it does nothing else. -/
theorem keyWaitWithoutKeyChangesNothing : Obligations.KeyWaitWithoutKeyChangesNothing := by
  intro x s hf hpc hnone hword
  have hdecode : decodeWord (wordOfBytes (s.readByte s.pc.toNat) (s.readByte (s.pc.toNat + 1))) = some (.ldVxKey x) :=
    hword ▸ decodeWord_encode (.ldVxKey x)
  calc cycle s = exec (.ldVxKey x) s.advancePc := by
        rw [cycle_eq_dispatchBytes hf (Nat.succ_lt_succ (Nat.lt_succ_of_le hpc)) rfl rfl, dispatchBytes_legal hdecode]
    _ = .next s.advancePc.rewindPc := exec_ldVxKey_of_noKey hnone
    _ = .next s := by rw [State.rewindPc_advancePc]

end

section
/-!
SUPPORT. The timers (47_timers.md rules R180 to R183): what FX07 reads of a timer in range, and the advance of a timer
that holds a multiple of P, by which P drops out.
-/
namespace Sys2Proof.Machine

variable {s : State} {x : RegIdx} {fps : Nat}

theorem timerPrecision_pos : 0 < Config.timerPrecision := Nat.succ_pos _

/-! ### The read -/

theorem TimersInRange.delay_le (h : TimersInRange s) : s.dtS / Config.timerPrecision ≤ 255 :=
  have ⟨hdelay, _⟩ := h
  Nat.div_le_of_le_mul (hdelay.trans_eq (Nat.mul_comm _ _))

/-- FX07 reads the whole logical value where it fits a byte: nothing is lost in the register. -/
theorem exec_ldVxDt_reads (hbyte : s.dtS / Config.timerPrecision ≤ 255) :
    ∃ t, exec (.ldVxDt x) s = .next t ∧ (t.getV x).toNat = s.dtS / Config.timerPrecision ∧
      SameBut (· = x) noByte [] s t := by
  refine ⟨_, rfl, ?_, setV_sameBut s x _⟩
  rw [State.getV_setV_same, BitVec.toNat_ofNat]
  exact Nat.mod_eq_of_lt (Nat.lt_succ_of_le hbyte)

/-! ### The advance and the tone -/

theorem advanceTimers_dtS (s : State) : (advanceTimers s).dtS = s.dtS - timerDecrement s.cfgFps := rfl

theorem advanceTimers_stS (s : State) : (advanceTimers s).stS = s.stS - timerDecrement s.cfgFps := rfl

/-- A frame rate that divides 60 leaves nothing to round: the decrement is a multiple of P. -/
theorem timerDecrement_of_dvd (h : fps ∣ 60) : timerDecrement fps = Config.timerPrecision * (60 / fps) := by
  rw [timerDecrement, Nat.mul_comm, Nat.mul_div_assoc _ h]

/-- P factors out of the advance of a timer that holds a multiple of it, the clamp at zero included (R183). -/
theorem scaled_sub_timerDecrement (h : fps ∣ 60) (v : Nat) :
    Config.timerPrecision * v - timerDecrement fps = Config.timerPrecision * (v - 60 / fps) := by
  rw [timerDecrement_of_dvd h, Nat.mul_sub]

theorem State.beeping_iff (s : State) : s.beeping = true ↔ s.stS ≠ 0 := bne_iff_ne

theorem scaled_ne_zero {v : Nat} : Config.timerPrecision * v ≠ 0 ↔ v ≠ 0 :=
  mul_ne_zero_iff_left timerPrecision_pos.ne'

end Sys2Proof.Machine

open Sys2Proof Sys2Proof.Machine

/-- Settles O39: the decrement is a multiple of P, so P factors out of the advance, the read and the test for zero. -/
theorem precisionIsUnobservableWhenRateDivides60 : Obligations.PrecisionIsUnobservableWhenRateDivides60 := by
  intro x s a b hdvd ha _ hdt hst
  refine ⟨?delay, ?sound, ?read, ?tone⟩
  case delay => rw [advanceTimers_dtS, hdt, scaled_sub_timerDecrement hdvd]
  case sound => rw [advanceTimers_stS, hst, scaled_sub_timerDecrement hdvd]
  case read =>
    have hlogical : s.dtS / Config.timerPrecision = a := by rw [hdt, Nat.mul_div_cancel_left a timerPrecision_pos]
    obtain ⟨t, ht, hread, -⟩ := exec_ldVxDt_reads (x := x) (hlogical.trans_le ha)
    exact ⟨t, ht, hread.trans hlogical⟩
  case tone => rw [State.beeping_iff, hst, scaled_ne_zero]

/-- Settles O36: a timer in range has a logical value of at most 255, which the register holds exactly. -/
theorem delayTimerReadIsLogicalValue : Obligations.DelayTimerReadIsLogicalValue :=
  fun x _ hrange => ⟨decodeWord_encode (.ldVxDt x), exec_ldVxDt_reads hrange.delay_le⟩

/-- Settles O37: each write is one update of its timer. -/
theorem timerWritesScaleByPrecision : Obligations.TimerWritesScaleByPrecision :=
  fun x s => ⟨⟨decodeWord_encode (.ldDtVx x), _, rfl, rfl, (SameBut.refl _ _ _ s).setDt _⟩,
    decodeWord_encode (.ldStVx x), _, rfl, rfl, (SameBut.refl _ _ _ s).setSt _⟩

end

section
/-!
SUPPORT. The canonical form of the memory (log 7): every operation that writes memory is a run of byte writes, so the
instructions, the cycle, the moves of the host and the frame keep it.
-/
namespace Sys2Proof.Machine

variable {s t : State}

theorem memCanonical_reset : MemCanonical State.reset := rfl

theorem exec_memCanonical (i : Instr) (h : MemCanonical s) : ∃ t, exec i s = .next t ∧ MemCanonical t := by
  have hstore (a : Nat) (bs : List Byte) : MemCanonical (s.setMem (Mem.writeBytes s.mem a bs)) :=
    Mem.wf_writeBytes h a bs
  cases i with
  | ldBcd x => exact execLdBcd_answers (hstore _ _) h
  | storeRegs x => exact execStoreRegs_answers (hstore _ _) h
  | loadRegs x => exact execLoadRegs_answers h h
  | ret => exact execRet_answers (fun _ => h) h
  | call nnn => exact execCall_answers (fun _ => h) h
  | drw x y n => exact execDrw_answers (fun _ _ => h) fun _ => h
  | skp x => exact execSkp_answers (by simpa [MemCanonical] using h) h
  | sknp x => exact execSknp_answers (by simpa [MemCanonical] using h) h
  | ldVxKey x => exact execLdVxKey_answers (fun _ => h) h
  | seImm | sneImm | seReg | sneReg => exact ⟨_, rfl, by simpa [MemCanonical] using h⟩
  | addReg | sub | shr | subn | shl => exact ⟨_, rfl, by rw [State.aluWithFlag_eq]; exact h⟩
  | _ => exact ⟨_, rfl, h⟩

theorem cycle_memCanonical (hc : cycle s = .next t) (h : MemCanonical s) : MemCanonical t :=
  cycle_keeps hc h (fun _ _ => h) (fun _ _ _ => h) fun _ i => exec_memCanonical i h

theorem HostMove.memCanonical (hm : HostMove s t) (h : MemCanonical s) : MemCanonical t := by
  cases hm with
  | imageLoaded bytes => exact Mem.wf_writeBytes h Config.progBase bytes
  | emptyFrame => exact endFrame_keeps (fun _ _ _ _ hu => hu) h h
  | oneCycle u r hc => exact cycle_memCanonical (t := u) hc h
  | _ => exact h

end Sys2Proof.Machine

open Sys2Proof Sys2Proof.Machine

/-- Settles O56: FX33, FX55 and the load write memory byte by byte, and a byte written keeps the form. -/
theorem stepKeepsMemoryCanonical : Obligations.StepKeepsMemoryCanonical := fun _ _ h hstep =>
  step_keeps (fun _ _ _ _ hu => hu) (fun _ => memCanonical_reset) (fun _ _ => HostMove.memCanonical)
    (fun _ _ => cycle_memCanonical) (fun _ hu => hu) h hstep

end

section
/-!
SUPPORT. Which faults an instruction can take (60_exceptions.md rules R211 to R218): each of the eight that can raise
writes the latch and nothing else, and outside the bound it checks it does raise.
-/
namespace Sys2Proof.Machine

variable {s : State} {x y : RegIdx} {n : Nibble}

/-! ### Which instruction takes which fault (R211) -/

/-- The faults an instruction can raise in a state. -/
inductive CanRaise (s : State) : Instr → FaultValue → Prop where
  /-- R213. -/
  | ret : CanRaise s .ret .stackUnderflow
  /-- R215. -/
  | call (nnn : Addr12) : CanRaise s (.call nnn) .stackOverflow
  /-- R216, as the next three. -/
  | drw (x y : RegIdx) (n : Nibble) (a : Nat) : CanRaise s (.drw x y n) (.addressOutOfRange .read a)
  | ldBcd (x : RegIdx) (a : Nat) : CanRaise s (.ldBcd x) (.addressOutOfRange .write a)
  | storeRegs (x : RegIdx) (a : Nat) : CanRaise s (.storeRegs x) (.addressOutOfRange .write a)
  | loadRegs (x : RegIdx) (a : Nat) : CanRaise s (.loadRegs x) (.addressOutOfRange .read a)
  /-- R222, as the next. -/
  | skp (x : RegIdx) : CanRaise s (.skp x) (.keyIndexOutOfRange (s.getV x))
  | sknp (x : RegIdx) : CanRaise s (.sknp x) (.keyIndexOutOfRange (s.getV x))

/-- Every instruction answers: it leaves the latch alone, or raises a fault of its own and does nothing else (R218). -/
theorem exec_completes_or_raises (i : Instr) (s : State) :
    ∃ t, exec i s = .next t ∧ (t.fault = s.fault ∨ ∃ f, CanRaise s i f ∧ t = s.raise f) := by
  by_cases hi : .latch ∈ writesParts i
  · cases i with
    | ret => exact execRet_answers (fun _ => .inl rfl) (.inr ⟨_, .ret, rfl⟩)
    | call nnn => exact execCall_answers (fun _ => .inl rfl) (.inr ⟨_, .call nnn, rfl⟩)
    | drw x y n => exact execDrw_answers (fun _ _ => .inl rfl) fun a => .inr ⟨_, .drw x y n a, rfl⟩
    | ldBcd x => exact execLdBcd_answers (.inl rfl) (.inr ⟨_, .ldBcd x _, rfl⟩)
    | storeRegs x => exact execStoreRegs_answers (.inl rfl) (.inr ⟨_, .storeRegs x _, rfl⟩)
    | loadRegs x => exact execLoadRegs_answers (.inl rfl) (.inr ⟨_, .loadRegs x _, rfl⟩)
    | skp x => exact execSkp_answers (fun held => .inl (s.skipIf_fault held)) (.inr ⟨_, .skp x, rfl⟩)
    | sknp x => exact execSknp_answers (fun held => .inl (s.skipIf_fault held)) (.inr ⟨_, .sknp x, rfl⟩)
    | _ => simp [writesParts] at hi
  · obtain ⟨t, ht, hframe⟩ := exec_inFrame i s
    exact ⟨t, ht, .inl (hframe.part hi)⟩

/-! ### Where a fault is taken (R213, R215, R216) -/

theorem exec_ret_of_empty (hsp : s.sp.val = 0) : exec .ret s = .next (s.raise .stackUnderflow) :=
  dif_neg (Nat.not_lt.mpr hsp.le)

theorem exec_call_of_full (nnn : Addr12) (hsp : s.sp.val = Config.stackDepth) :
    exec (.call nnn) s = .next (s.raise .stackOverflow) :=
  dif_neg (Nat.not_lt.mpr hsp.ge)

theorem exec_drw_outside (hpos : 0 < n.toNat) (hout : 0xFFF < s.I.toNat + n.toNat - 1) :
    exec (.drw x y n) s = .next (s.raise (.addressOutOfRange .read (s.I.toNat + n.toNat - 1))) := by
  have hlast : s.I.toNat + n.toNat - 1 = s.addrI (n.toNat - 1) := Nat.add_sub_assoc hpos _
  rw [hlast] at hout ⊢
  exact (if_neg hpos.ne').trans (checkAddr_outside hout s _)

theorem exec_ldBcd_outside (hout : 0xFFF < s.I.toNat + 2) :
    exec (.ldBcd x) s = .next (s.raise (.addressOutOfRange .write (s.I.toNat + 2))) := by
  rw [exec, execLdBcd]
  exact checkAddr_outside hout s _

theorem exec_storeRegs_outside (hout : 0xFFF < s.I.toNat + x.toNat) :
    exec (.storeRegs x) s = .next (s.raise (.addressOutOfRange .write (s.I.toNat + x.toNat))) := by
  rw [exec, execStoreRegs]
  exact checkAddr_outside hout s _

theorem exec_loadRegs_outside (hout : 0xFFF < s.I.toNat + x.toNat) :
    exec (.loadRegs x) s = .next (s.raise (.addressOutOfRange .read (s.I.toNat + x.toNat))) := by
  rw [exec, execLoadRegs]
  exact checkAddr_outside hout s _

theorem cycle_fetch_outside (hf : s.fault = none) (hout : 0xFFF < s.pc.toNat + 1) :
    cycle s = .next (s.raise (.addressOutOfRange .fetch (s.pc.toNat + 1))) := by
  have hpc : ¬ s.pc.toNat + 1 < Config.memSize := Nat.not_lt.mpr hout
  simp [cycle, fetchBytes, hf, hpc]

end Sys2Proof.Machine

open Sys2Proof Sys2Proof.Machine

/-- Settles O40: an instruction keeps the latch, or raises and does nothing else. -/
theorem everyInstructionAnswersAndFaultsPrecisely : Obligations.EveryInstructionAnswersAndFaultsPrecisely := by
  intro i s
  obtain ⟨t, ht, hkept | ⟨f, -, hraised⟩⟩ := exec_completes_or_raises i s
  · exact ⟨t, ht, fun hf => .inl (hkept.trans hf)⟩
  · exact ⟨t, ht, fun _ => .inr ⟨f, hraised⟩⟩

/-- Settles O41: a latch that was clear and is not any more holds a fault the instruction can raise. -/
theorem onlyListedInstructionsRaise : Obligations.OnlyListedInstructionsRaise := by
  intro i s t f hclear ht hf
  obtain hkept | ⟨g, hg, rfl⟩ := holds_of_answers (exec_completes_or_raises i s) ht
  · simp [hkept, hclear] at hf
  · obtain rfl : g = f := Option.some.inj hf
    cases hg <;> simp

/-- Settles O19: RET checks for an empty stack and CALL for a full one before they write anything. -/
theorem stackFaultsWriteOnlyTheLatch : Obligations.StackFaultsWriteOnlyTheLatch :=
  fun nnn _ => ⟨exec_ret_of_empty, exec_call_of_full nnn⟩

/-- Settles O25: each access checks its highest address before it writes anything. -/
theorem outOfRangeAccessWritesOnlyTheLatch : Obligations.OutOfRangeAccessWritesOnlyTheLatch :=
  fun _ _ _ _ => ⟨exec_drw_outside, exec_ldBcd_outside, exec_storeRegs_outside, exec_loadRegs_outside,
    cycle_fetch_outside⟩

/-- Settles O47: the word fetched is big-endian, and a word of no row does not decode. -/
theorem illegalWordRaisesUnknownInstruction : Obligations.IllegalWordRaisesUnknownInstruction := by
  intro s w hf hpc hword hrow
  have hw : wordOfBytes (s.readByte s.pc.toNat) (s.readByte (s.pc.toNat + 1)) = w :=
    BitVec.eq_of_toNat_eq ((wordOfBytes_toNat _ _).trans hword.symm)
  obtain ⟨hagree, -⟩ := decoderAgreesWithOpcodeMap w
  have hdecode : decodeWord w = none := Option.not_isSome_iff_eq_none.mp (by simp [hagree, hrow])
  subst hw
  exact (cycle_eq_dispatchBytes hf (Nat.succ_lt_succ (Nat.lt_succ_of_le hpc)) rfl rfl).trans
    (dispatchBytes_illegal hdecode s.advancePc)

end

section
/-!
SUPPORT. DFYN and DXFN (45_display.md rule R161(g)): the coordinates a draw with a field 0xF reads, order by order.
-/
namespace Sys2Proof.Machine

variable {x y : RegIdx}

/-- With a field 0xF the coordinates are those of the order the parameter names. -/
theorem State.coordsOf_of_alias (s : State) (halias : x = Config.flagReg ∨ y = Config.flagReg) :
    s.coordsOf x y = s.drawCoords Config.vfAliasOrder x y :=
  if_neg fun ⟨hx, hy⟩ => halias.elim hx hy

/-- Read again after VF is reset, a field 0xF gives 0 and any other its register. -/
theorem State.drawCoords_reread (s : State) (x y : RegIdx) :
    s.drawCoords .flagFirstReread x y =
      (if x = Config.flagReg then 0 else s.getV x, if y = Config.flagReg then 0 else s.getV y) := by
  simp only [State.drawCoords, State.getV_setV]

end Sys2Proof.Machine

open Sys2Proof Sys2Proof.Machine

/-- Settles O32: whatever the coordinates, the draw is the one exclusive-or; the order decides what they are. -/
theorem drawWithVfCoordinateFollowsTheParameter : Obligations.DrawWithVfCoordinateFollowsTheParameter := by
  intro x y n s halias hin
  refine ⟨_, exec_drw_inside hin, ?_⟩
  rw [s.coordsOf_of_alias halias]
  generalize Config.vfAliasOrder = order
  have hdrawn := drawSprite_drawn s (s.drawCoords order x y) (show n.toNat ≤ 32 by omega)
  cases order with
  | flagLast => exact hdrawn
  | resultLast => exact hdrawn
  | flagFirstReread =>
    rw [State.drawCoords_reread] at hdrawn ⊢
    exact hdrawn

end

section
/-!
SUPPORT. The operations of the host that run no instruction (48_frame_sequencer_and_host.md rules R192 to R204): the
load on each side of the capacity, the contract, and the values reset fixes.
-/
namespace Sys2Proof.Machine

variable {s : State} {bytes : List Byte}

/-! ### The timer advance (R192) -/

theorem advanceTimers_sameBut (s : State) : SameBut noReg noByte [.delay, .sound] s (advanceTimers s) :=
  ((SameBut.refl _ _ _ s).setDt _ (by decide)).setSt _ (by decide)

/-- Subtraction of naturals is the clamp at 0. -/
theorem natCast_sub_eq_max (a b : Nat) : ((a - b : Nat) : Int) = max 0 ((a : Int) - b) := by omega

/-! ### Configuration and load (R195 to R197) -/

theorem unlessHalted_of_running (hf : s.fault = none) (k : State) : unlessHalted s k = k := by
  simp [unlessHalted, hf]

theorem loadProgram_of_running (hf : s.fault = none) (hload : s.loaded = false) :
    loadProgram bytes s = .next (loadImage bytes s) := by
  simp [loadProgram, hf, hload]

theorem loadImage_of_fits (hlen : bytes.length ≤ 3584) :
    loadImage bytes s =
      { s with mem := Mem.writeBytes s.mem Config.progBase bytes, loaded := true, reply := some .ok } :=
  if_neg (Nat.not_lt.mpr hlen)

theorem loadImage_of_tooLong (hlen : 3584 < bytes.length) :
    loadImage bytes s =
      { s with fault := some (.capacityExceeded bytes.length),
               reply := some (.fault (.capacityExceeded bytes.length)) } :=
  if_pos hlen

/-- The whole image is read back, from 0x200 on: an image that fits ends within memory. -/
theorem read_loadedImage (hmem : MemCanonical s) (hlen : bytes.length ≤ 3584) {k : Nat} (hk : k < bytes.length) :
    Mem.read (Mem.writeBytes s.mem Config.progBase bytes) (0x200 + k) = bytes[k] :=
  Mem.read_writeBytes_inside hmem Config.progBase bytes (show 512 + bytes.length ≤ 4096 by omega) hk

theorem read_outsideImage (s : State) (bytes : List Byte) {a : Nat} (ha : ¬ bytesFrom 0x200 bytes.length a) :
    Mem.read (Mem.writeBytes s.mem Config.progBase bytes) a = s.readByte a :=
  Mem.read_writeBytes_outside s.mem Config.progBase bytes
    (show a < 512 ∨ 512 + bytes.length ≤ a by unfold bytesFrom at ha; omega)

/-! ### The contract (R203, R204) -/

theorem loadProgram_of_loaded (hf : s.fault = none) (hload : s.loaded = true) :
    loadProgram bytes s = .refused .secondLoad := by
  simp [loadProgram, hf, hload]

theorem ifRunnable_of_unloaded (hf : s.fault = none) (hload : s.loaded = false) (k : State → Result) :
    ifRunnable s k = .refused .runBeforeLoad := by
  simp [ifRunnable, hf, hload]

/-! ### Reset (R36, R230) -/

/-- Memory nothing has written holds the font table at its place (R52). -/
theorem Mem.initial_font {k : Nat} (hk : k < fontTable.length) : Mem.initial (Config.fontBase + k) = fontTable[k] := by
  have hk' : k < Config.fontSize := hk
  rw [Mem.initial, if_pos ⟨Nat.le_add_right _ _, Nat.add_lt_add_left hk' _⟩, Nat.add_sub_cancel_left,
    List.getD_eq_getElem _ _ hk]

theorem clearDisp_cell (cx : Fin 64) (cy : Fin 32) : Disp.cell clearDisp cx cy = false := by
  simp [Disp.cell, clearDisp]

theorem hasResetValues_reset : HasResetValues State.reset :=
  ⟨rfl, clearDisp_cell, fun _ hk => Mem.initial_font hk, rfl, rfl, rfl, rfl⟩

/-- The host's reset differs from reset in the queue and the draw counter alone, which the spec's values do not read. -/
theorem hasResetValues_hostReset (s : State) : HasResetValues (hostReset s) := hasResetValues_reset

end Sys2Proof.Machine

open Sys2Proof Sys2Proof.Machine

/-- Settles O38: each timer is reduced by the decrement on its own. -/
theorem timerAdvanceIsClampedDecrement : Obligations.TimerAdvanceIsClampedDecrement :=
  fun s _ => ⟨natCast_sub_eq_max s.dtS _, natCast_sub_eq_max s.stS _, advanceTimers_sameBut s⟩

/-- Settles O52: with no fault latched each write is performed, and a queued one is the host's next move. -/
theorem configurationRefusesZero : Obligations.ConfigurationRefusesZero := by
  intro s n rest hf
  exact ⟨unlessHalted_of_running hf _, unlessHalted_of_running hf _, step_queued, step_queued⟩

/-- Settles O53: an image that fits is one run of bytes; one that does not only raises. -/
theorem loadCopiesImageOrTouchesNothing : Obligations.LoadCopiesImageOrTouchesNothing := by
  intro s bytes rest hmem hf hload
  refine ⟨step_queued, loadImage bytes s, loadProgram_of_running hf hload, ?_⟩
  by_cases hlen : bytes.length ≤ 3584
  · rw [loadImage_of_fits hlen]
    exact ⟨rfl, fun _ => ⟨fun _ hk => read_loadedImage hmem hlen hk, fun _ ha => read_outsideImage s bytes ha,
      hf, rfl, rfl⟩, fun hlong => absurd hlen (Nat.not_le.mpr hlong)⟩
  · rw [loadImage_of_tooLong (Nat.not_le.mp hlen)]
    exact ⟨rfl, fun hfits => absurd hfits hlen, fun _ => ⟨rfl, rfl, hload, rfl⟩⟩

/-- Settles O54: the host's next move is performed, and it is the refusal. -/
theorem outOfContractMovesAreRefused : Obligations.OutOfContractMovesAreRefused := by
  intro s bytes rest hf hl
  refine ⟨fun hload hq => ?secondLoad, fun hload hq => ?frame, fun hload hq => ?oneCycle⟩
  case secondLoad => exact (step_queued hl hq).trans (loadProgram_of_loaded (s := { s with hostOps := rest }) hf hload)
  case frame => exact (step_queued hl hq).trans (ifRunnable_of_unloaded (s := { s with hostOps := rest }) hf hload _)
  case oneCycle => exact (step_queued hl hq).trans (ifRunnable_of_unloaded (s := { s with hostOps := rest }) hf hload _)

/-- Settles O55: each is the host's next move, and none of them looks at the latch. -/
theorem observersAnswerTheHost : Obligations.ObserversAnswerTheHost :=
  fun _ _ _ hl => ⟨step_queued hl, step_queued hl, step_queued hl, step_queued hl, step_queued hl⟩

/-- Settles O60: reset, and the host's reset from any state between operations. -/
theorem resetHasTheValuesTheSpecFixes : Obligations.ResetHasTheValuesTheSpecFixes :=
  ⟨hasResetValues_reset, fun s rest hl hq =>
    ⟨hostReset { s with hostOps := rest }, step_queued hl hq, hasResetValues_hostReset _, rfl, rfl, rfl⟩⟩

end

section
/-!
SUPPORT. The frame's count is the sequencer's own: no instruction and no cycle reads it or writes it
(48_frame_sequencer_and_host.md rule R190; log 17), so a cycle inside a frame is the cycle of the whole frame.
-/
namespace Sys2Proof.Machine

variable {s : State} {x : RegIdx} {n : Nat}

/-- The state with the frame's count set. -/
def State.setFrameLeft (s : State) (n : Nat) : State := { s with frameLeft := n }

/-- The result with the frame's count set in the state it answers. -/
def Result.setFrameLeft (r : Result) (n : Nat) : Result := r.andThen fun t => .next (t.setFrameLeft n)

/-! ### The operations that branch -/

theorem checkAddr_setFrameLeft {kind : AccessKind} {a : Nat} {k : State → Result}
    (hk : k (s.setFrameLeft n) = Result.setFrameLeft (k s) n) :
    checkAddr kind a (s.setFrameLeft n) k = Result.setFrameLeft (checkAddr kind a s k) n := by
  unfold checkAddr
  split
  · exact hk
  · rfl

theorem withKey_setFrameLeft {k k' : Bool → Result} (hk : ∀ held, k' held = Result.setFrameLeft (k held) n) :
    withKey x (s.setFrameLeft n) k' = Result.setFrameLeft (withKey x s k) n := by
  obtain ⟨hkey, hin⟩ | ⟨hkey, hout⟩ := withKey_cases x s k
  · rw [hin, ← hk]; exact withKey_of_key (s := s.setFrameLeft n) hkey k'
  · rw [hout]; exact withKey_of_noKey (s := s.setFrameLeft n) hkey k'

theorem skipIf_setFrameLeft (s : State) (c : Bool) : (s.setFrameLeft n).skipIf c = (s.skipIf c).setFrameLeft n := by
  cases c <;> rfl

theorem aluWithFlag_setFrameLeft (s : State) (op : FlagOp) (x y : RegIdx) :
    (s.setFrameLeft n).aluWithFlag op x y = (s.aluWithFlag op x y).setFrameLeft n := by
  unfold State.aluWithFlag State.writeInOrder
  split
  · rfl
  · cases Config.vfAliasOrder <;> rfl

theorem drawRows_setFrameLeft (s : State) (x0 y0 : Byte) (c : Disp × Bool) (k : Nat) :
    drawRows (s.setFrameLeft n) x0 y0 c k = drawRows s x0 y0 c k := by
  induction k with
  | zero => rfl
  | succ k ih => rw [drawRows, ih]; rfl

theorem drawSprite_setFrameLeft (s : State) (xy : Byte × Byte) (k : Nat) :
    (s.setFrameLeft n).drawSprite xy k = (s.drawSprite xy k).setFrameLeft n := by
  rw [State.drawSprite_eq, drawRows_setFrameLeft]
  rfl

/-! ### The instructions that branch -/

theorem exec_ret_setFrameLeft (s : State) : exec .ret (s.setFrameLeft n) = Result.setFrameLeft (exec .ret s) n := by
  obtain hempty | hlive := Nat.eq_zero_or_pos s.sp.val
  · rw [exec_ret_of_empty hempty]; exact exec_ret_of_empty (s := s.setFrameLeft n) hempty
  · rw [exec_ret_of_live hlive]; exact exec_ret_of_live (s := s.setFrameLeft n) hlive

theorem exec_call_setFrameLeft (nnn : Addr12) (s : State) :
    exec (.call nnn) (s.setFrameLeft n) = Result.setFrameLeft (exec (.call nnn) s) n := by
  obtain hfull | hfree := (Nat.le_of_lt_succ s.sp.isLt).eq_or_lt
  · rw [exec_call_of_full nnn hfull]; exact exec_call_of_full (s := s.setFrameLeft n) nnn hfull
  · rw [exec_call_of_free nnn hfree]; exact exec_call_of_free (s := s.setFrameLeft n) nnn hfree

theorem exec_ldVxKey_setFrameLeft (x : RegIdx) (s : State) :
    exec (.ldVxKey x) (s.setFrameLeft n) = Result.setFrameLeft (exec (.ldVxKey x) s) n := by
  cases hk : leastHeld s.keys with
  | some k => rw [exec_ldVxKey_of_least hk]; exact exec_ldVxKey_of_least (s := s.setFrameLeft n) hk
  | none =>
    have hnone := leastHeld_eq_none.mp hk
    rw [exec_ldVxKey_of_noKey hnone]; exact exec_ldVxKey_of_noKey (s := s.setFrameLeft n) hnone

theorem exec_drw_setFrameLeft (x y : RegIdx) (k : Nibble) (s : State) :
    exec (.drw x y k) (s.setFrameLeft n) = Result.setFrameLeft (exec (.drw x y k) s) n := by
  have hdraw (m : Nat) : Host.Outcome.next ((s.setFrameLeft n).drawSprite (s.coordsOf x y) m) =
      Result.setFrameLeft (.next (s.drawSprite (s.coordsOf x y) m)) n :=
    congrArg Host.Outcome.next (drawSprite_setFrameLeft s _ m)
  simp only [exec, execDrw]
  split
  · exact hdraw 0
  · exact checkAddr_setFrameLeft (hdraw k.toNat)

/-! ### The instruction and the cycle -/

theorem exec_setFrameLeft (i : Instr) (s : State) :
    exec i (s.setFrameLeft n) = Result.setFrameLeft (exec i s) n := by
  cases i with
  | ret => exact exec_ret_setFrameLeft s
  | call nnn => exact exec_call_setFrameLeft nnn s
  | seImm | sneImm | seReg | sneReg => exact congrArg Host.Outcome.next (skipIf_setFrameLeft s _)
  | addReg | sub | shr | subn | shl => exact congrArg Host.Outcome.next (aluWithFlag_setFrameLeft s _ _ _)
  | drw x y k => exact exec_drw_setFrameLeft x y k s
  | skp x =>
    rw [exec_skp, exec_skp]
    exact withKey_setFrameLeft fun _ => congrArg Host.Outcome.next (skipIf_setFrameLeft s _)
  | sknp x =>
    rw [exec_sknp, exec_sknp]
    exact withKey_setFrameLeft fun _ => congrArg Host.Outcome.next (skipIf_setFrameLeft s _)
  | ldVxKey x => exact exec_ldVxKey_setFrameLeft x s
  | ldBcd x => simp only [exec, execLdBcd]; exact checkAddr_setFrameLeft rfl
  | storeRegs x => simp only [exec, execStoreRegs]; exact checkAddr_setFrameLeft rfl
  | loadRegs x => simp only [exec, execLoadRegs]; exact checkAddr_setFrameLeft rfl
  | _ => rfl

theorem dispatchBytes_setFrameLeft (hi lo : Byte) (s : State) :
    dispatchBytes [hi, lo] (s.setFrameLeft n) = Result.setFrameLeft (dispatchBytes [hi, lo] s) n := by
  cases hd : decodeWord (wordOfBytes hi lo) with
  | some i => rw [dispatchBytes_legal hd, dispatchBytes_legal hd, exec_setFrameLeft]
  | none => rw [dispatchBytes_illegal hd, dispatchBytes_illegal hd]; rfl

theorem cycle_setFrameLeft (s : State) : cycle (s.setFrameLeft n) = Result.setFrameLeft (cycle s) n := by
  cases hf : s.fault with
  | some f => rw [cycle_of_fault hf]; exact cycle_of_fault (s := s.setFrameLeft n) hf
  | none =>
    obtain hpc | hpc := Nat.lt_or_ge (s.pc.toNat + 1) Config.memSize
    · rw [cycle_eq_dispatchBytes hf hpc rfl rfl, ← dispatchBytes_setFrameLeft]
      exact cycle_eq_dispatchBytes (s := s.setFrameLeft n) hf hpc rfl rfl
    · rw [cycle_fetch_outside hf hpc]
      exact cycle_fetch_outside (s := s.setFrameLeft n) hf hpc

end Sys2Proof.Machine
end

section
/-!
SUPPORT. The frame (48_frame_sequencer_and_host.md rules R190 to R193): its cycles always answer; executeFrame as R190
writes it; and the steps of a frame, which make the same state, with the frame's count around each cycle.
-/
namespace Sys2Proof.Machine

variable {s t u : State} {n left : Nat}

/-! ### Up to `n` cycles -/

theorem HostSideKept.refl (s : State) : HostSideKept s s := by simp [HostSideKept]

theorem HostSideKept.trans (h : HostSideKept s t) (h' : HostSideKept t u) : HostSideKept s u := by
  simp_all [HostSideKept]

/-- A cycle answers in every state: no instruction stops the machine. -/
theorem cycle_answers (s : State) : ∃ t, cycle s = .next t := by
  obtain ⟨-, hc⟩ | ⟨-, -, hc⟩ | ⟨-, -, ⟨-, hc⟩ | ⟨i, -, hc⟩⟩ := cycle_cases s
  · exact ⟨_, hc⟩
  · exact ⟨_, hc⟩
  · exact ⟨_, hc⟩
  · obtain ⟨t, ht, -⟩ := exec_inFrame i s.advancePc
    exact ⟨t, hc.trans ht⟩

/-- The cycles of a frame stop at the first fault. -/
theorem runCycles_succ_of_fault {f : FaultValue} (hc : cycle s = .next t) (hf : t.fault = some f) :
    runCycles (n + 1) s = .next t := by
  simp [runCycles, hc, hf]

theorem runCycles_succ_of_running (hc : cycle s = .next t) (hf : t.fault = none) :
    runCycles (n + 1) s = runCycles n t := by
  simp [runCycles, hc, hf]

theorem runCycles_answers (n : Nat) (s : State) : ∃ t, runCycles n s = .next t ∧ HostSideKept s t := by
  induction n generalizing s with
  | zero => exact ⟨s, rfl, .refl s⟩
  | succ n ih =>
    obtain ⟨u, hc⟩ := cycle_answers s
    have hkept := cycle_hostSideKept hc
    cases hf : u.fault with
    | some f => exact ⟨u, runCycles_succ_of_fault hc hf, hkept⟩
    | none =>
      obtain ⟨t, ht, hkept'⟩ := ih u
      exact ⟨t, (runCycles_succ_of_running hc hf).trans ht, hkept.trans hkept'⟩

theorem runCycles_setFrameLeft {m : Nat} (s : State) :
    runCycles n (s.setFrameLeft m) = Result.setFrameLeft (runCycles n s) m := by
  induction n generalizing s with
  | zero => rfl
  | succ n ih =>
    obtain ⟨u, hc⟩ := cycle_answers s
    have hc' : cycle (s.setFrameLeft m) = .next (u.setFrameLeft m) := by rw [cycle_setFrameLeft, hc]; rfl
    cases hf : u.fault with
    | some f => rw [runCycles_succ_of_fault hc hf]; exact runCycles_succ_of_fault hc' hf
    | none => rw [runCycles_succ_of_running hc hf, ← ih u]; exact runCycles_succ_of_running hc' hf

/-! ### The whole frame -/

theorem endFrame_of_fault {f : FaultValue} (hf : s.fault = some f) :
    endFrame s = { s with frameLeft := 0, reply := some (.fault f) } := by
  simp [endFrame, hf, State.answer]

theorem endFrame_of_running (hf : s.fault = none) :
    endFrame s = { advanceTimers s with frameLeft := 0, reply := some .ok } := by
  simp [endFrame, hf, State.answer]

/-- What executeFrame makes of a budget of `n` cycles on a running core (R190). -/
def frameOf (n : Nat) (s : State) : Result := (runCycles n s).andThen fun t => .next (endFrame t)

theorem frameOf_zero (s : State) : frameOf 0 s = .next (endFrame s) := rfl

theorem frameOf_succ_of_fault {f : FaultValue} (hc : cycle s = .next t) (hf : t.fault = some f) :
    frameOf (n + 1) s = .next (endFrame t) := by
  rw [frameOf, runCycles_succ_of_fault hc hf, Result.andThen_next]

theorem frameOf_succ_of_running (hc : cycle s = .next t) (hf : t.fault = none) : frameOf (n + 1) s = frameOf n t := by
  rw [frameOf, runCycles_succ_of_running hc hf, frameOf]

/-- A frame of one cycle ends after it, at a fault or not. -/
theorem frameOf_one (hc : cycle s = .next t) : frameOf 1 s = .next (endFrame t) := by
  cases hf : t.fault with
  | some f => exact frameOf_succ_of_fault hc hf
  | none => exact frameOf_succ_of_running hc hf

theorem frameOf_answers (n : Nat) (s : State) :
    ∃ t, frameOf n s = .next (endFrame t) ∧ runCycles n s = .next t ∧ HostSideKept s t := by
  obtain ⟨t, ht, hkept⟩ := runCycles_answers n s
  exact ⟨t, by rw [frameOf, ht, Result.andThen_next], ht, hkept⟩

/-- The end of a frame sets the count to 0, whatever it was. -/
theorem endFrame_setFrameLeft (s : State) : endFrame (s.setFrameLeft n) = endFrame s := by
  cases hf : s.fault with
  | some f => rw [endFrame_of_fault hf]; exact endFrame_of_fault (s := s.setFrameLeft n) hf
  | none => rw [endFrame_of_running hf]; exact endFrame_of_running (s := s.setFrameLeft n) hf

theorem frameOf_setFrameLeft {m : Nat} (s : State) : frameOf n (s.setFrameLeft m) = frameOf n s := by
  obtain ⟨t, ht, hrun, -⟩ := frameOf_answers n s
  rw [ht, frameOf, runCycles_setFrameLeft, hrun]
  exact congrArg Host.Outcome.next (endFrame_setFrameLeft t)

theorem executeFrame_of_fault {f : FaultValue} (hf : s.fault = some f) :
    executeFrame s = .next (s.answer (some (.fault f))) := by
  simp [executeFrame, hf]

theorem executeFrame_of_zeroRate (hf : s.fault = none) (hfps : s.cfgFps = 0) :
    executeFrame s = .fault .zeroFrameRate := by
  simp [executeFrame, hf, hfps]

theorem executeFrame_of_running (hf : s.fault = none) (hfps : s.cfgFps ≠ 0) : executeFrame s = frameOf s.budget s := by
  simp [executeFrame, frameOf, hf, hfps]

/-! ### Its first move -/

theorem beginFrame_of_fault {f : FaultValue} (hf : s.fault = some f) :
    beginFrame s = .next (s.answer (some (.fault f))) := by
  simp [beginFrame, hf]

theorem beginFrame_of_zeroRate (hf : s.fault = none) (hfps : s.cfgFps = 0) :
    beginFrame s = .fault .zeroFrameRate := by
  simp [beginFrame, hf, hfps]

theorem beginFrame_of_zeroBudget (hf : s.fault = none) (hfps : s.cfgFps ≠ 0) (hb : s.budget = 0) :
    beginFrame s = .next (endFrame s) := by
  simp [beginFrame, hf, hfps, hb]

theorem beginFrame_of_budget (hf : s.fault = none) (hfps : s.cfgFps ≠ 0) (hb : s.budget = left + 1) :
    beginFrame s = frameCycle left s := by
  simp [beginFrame, hf, hfps, hb]

theorem afterCycle_of_fault {f : FaultValue} (hf : s.fault = some f) : afterCycle left s = endFrame s := by
  simp [afterCycle, hf]

theorem afterCycle_last (s : State) : afterCycle 0 s = endFrame s := by
  simp [afterCycle]

theorem afterCycle_of_running (hf : s.fault = none) : afterCycle (left + 1) s = s.setFrameLeft (left + 1) := by
  simp [afterCycle, hf, State.setFrameLeft]

/-- With a positive frame rate the start of a frame answers: its first cycle does. -/
theorem beginFrame_answers (hfps : 1 ≤ s.cfgFps) : ∃ t, beginFrame s = .next t := by
  have hfps' : s.cfgFps ≠ 0 := Nat.ne_of_gt hfps
  cases hf : s.fault with
  | some f => exact ⟨_, beginFrame_of_fault hf⟩
  | none =>
    cases hb : s.budget with
    | zero => exact ⟨_, beginFrame_of_zeroBudget hf hfps' hb⟩
    | succ left =>
      obtain ⟨t, hc⟩ := cycle_answers s
      exact ⟨_, beginFrame_of_cycle hf hfps hb hc⟩

/-! ### Steps of the machine -/

/-- `k` steps of the machine. -/
def runSteps (k : Nat) (s : State) : Result := Host.Core.run Sys2Proof.core k s

/-- One step of any machine, then the others. -/
theorem run_succ (M : Host.Core) (k : Nat) (s : M.State) :
    M.run (k + 1) s =
      match M.step s with
      | .next t => M.run k t
      | .fault r => .fault r
      | .refused r => .refused r := rfl

theorem runSteps_succ (k : Nat) (s : State) : runSteps (k + 1) s = Result.andThen (step s) (runSteps k) := by
  refine (run_succ Sys2Proof.core k s).trans ?_
  change _ = Result.andThen (Sys2Proof.core.step s) (runSteps k)
  cases Sys2Proof.core.step s <;> rfl

theorem Result.andThen_runSteps_zero (r : Result) : r.andThen (runSteps 0) = r := by cases r <;> rfl

theorem Result.andThen_runSteps_add (r : Result) (j k : Nat) :
    r.andThen (runSteps (j + k)) = (r.andThen (runSteps j)).andThen (runSteps k) := by
  induction j generalizing r with
  | zero => rw [Nat.zero_add, Result.andThen_runSteps_zero]
  | succ j ih =>
    cases r with
    | next s =>
      rw [Nat.add_right_comm, Result.andThen_next, Result.andThen_next, runSteps_succ, runSteps_succ]
      exact ih (step s)
    | fault | refused => rfl

theorem runSteps_of_still (h : step s = .next s) (k : Nat) : runSteps k s = .next s := by
  induction k with
  | zero => rfl
  | succ k ih => rw [runSteps_succ, h, Result.andThen_next, ih]

/-! ### The steps of a frame -/

/-- After a first move `r`, at most `n` more steps give the result; all `n` of them when it holds no fault. -/
def ReachesWithin (n : Nat) (r result : Result) : Prop :=
  ∃ m ≤ n, r.andThen (runSteps m) = result ∧ ∀ t, result = .next t → t.fault = none → m = n

theorem ReachesWithin.at_once {r : Result} (h : ∀ t, r = .next t → t.fault = none → n = 0) : ReachesWithin n r r :=
  ⟨0, Nat.zero_le n, r.andThen_runSteps_zero, fun t ht hf => (h t ht hf).symm⟩

theorem ReachesWithin.of_step {result : Result} (h : ReachesWithin n (step s) result) :
    ReachesWithin (n + 1) (.next s) result := by
  obtain ⟨m, hm, hreach, hall⟩ := h
  exact ⟨m + 1, Nat.succ_le_succ hm, (runSteps_succ m s).trans hreach, fun t ht hf => congrArg _ (hall t ht hf)⟩

/-- When a state that holds a fault stays, the remaining steps change nothing: `n` steps reach the result. -/
theorem ReachesWithin.in_all {r result : Result} (h : ReachesWithin n r result)
    (hstill : ∀ t, result = .next t → t.fault ≠ none → step t = .next t) : r.andThen (runSteps n) = result := by
  obtain ⟨m, hm, hreach, hall⟩ := h
  obtain ⟨k, rfl⟩ := Nat.exists_eq_add_of_le hm
  rw [Result.andThen_runSteps_add, hreach]
  cases result with
  | next t =>
    by_cases hf : t.fault = none
    · have hk : k = 0 := by have := hall t rfl hf; omega
      rw [hk]; rfl
    · exact runSteps_of_still (hstill t rfl hf) k
  | fault | refused => rfl

/-- The cycles of a frame, each a step but the first, reach the whole frame. -/
theorem frameCycle_reaches (hfps : 1 ≤ s.cfgFps) : ReachesWithin left (frameCycle left s) (frameOf (left + 1) s) := by
  induction left generalizing s with
  | zero =>
    obtain ⟨u, hc⟩ := cycle_answers s
    rw [frameCycle_of_cycle hfps hc, afterCycle_last, frameOf_one hc]
    exact .at_once fun _ _ _ => rfl
  | succ left ih =>
    obtain ⟨u, hc⟩ := cycle_answers s
    rw [frameCycle_of_cycle hfps hc]
    cases hf : u.fault with
    | some f =>
      rw [afterCycle_of_fault hf, frameOf_succ_of_fault hc hf]
      exact .at_once fun t ht hclear => by cases ht; simp [hf] at hclear
    | none =>
      rw [afterCycle_of_running hf, frameOf_succ_of_running hc hf, ← frameOf_setFrameLeft (m := left + 1)]
      obtain ⟨-, hrate, -⟩ := cycle_hostSideKept hc
      refine .of_step ?_
      rw [step_inFrame (s := u.setFrameLeft (left + 1)) rfl]
      exact ih (hfps.trans hrate.ge)

/-- From the call on, the steps of a frame reach what executeFrame answers. -/
theorem beginFrame_reaches (s : State) : ReachesWithin (s.budget - 1) (beginFrame s) (executeFrame s) := by
  cases hf : s.fault with
  | some f =>
    rw [beginFrame_of_fault hf, executeFrame_of_fault hf]
    exact .at_once fun t ht hclear => by cases ht; simp [hf] at hclear
  | none =>
    by_cases hfps : s.cfgFps = 0
    · rw [beginFrame_of_zeroRate hf hfps, executeFrame_of_zeroRate hf hfps]
      exact .at_once nofun
    · rw [executeFrame_of_running hf hfps]
      cases hb : s.budget with
      | zero =>
        rw [beginFrame_of_zeroBudget hf hfps hb, frameOf_zero]
        exact .at_once fun _ _ _ => rfl
      | succ left =>
        rw [beginFrame_of_budget hf hfps hb]
        exact frameCycle_reaches (Nat.one_le_iff_ne_zero.mpr hfps)

/-! ### The session around it -/

theorem ifRunnable_of_runnable (hrun : s.loaded = true ∨ s.fault ≠ none) (k : State → Result) :
    ifRunnable s k = k s := by
  simp [ifRunnable, Option.isSome_iff_ne_none, hrun]

/-- A frame that ends in a fault leaves the fault as its reply and the session as it was. -/
theorem executeFrame_next_of_fault {f : FaultValue} (hx : executeFrame s = .next t) (hf : t.fault = some f) :
    t.reply = some (.fault f) ∧ t.loaded = s.loaded ∧ t.hostOps = s.hostOps ∧ (s.frameLeft = 0 → t.frameLeft = 0) := by
  cases hs : s.fault with
  | some g =>
    cases (executeFrame_of_fault hs).symm.trans hx
    obtain rfl : g = f := Option.some.inj (hs.symm.trans hf)
    exact ⟨rfl, rfl, rfl, id⟩
  | none =>
    by_cases hfps : s.cfgFps = 0
    · cases (executeFrame_of_zeroRate hs hfps).symm.trans hx
    · obtain ⟨u, hu, -, -, -, -, -, hload, hops, -⟩ := frameOf_answers s.budget s
      cases ((executeFrame_of_running hs hfps).trans hu).symm.trans hx
      rw [endFrame_of_fault ((endFrame_fault u).symm.trans hf)]
      exact ⟨rfl, hload, hops, fun _ => rfl⟩

/-- The free-running machine, once halted, answers the same fault for ever. -/
theorem step_still_of_fault {f : FaultValue} (hf : s.fault = some f) (hreply : s.reply = some (.fault f))
    (hl : s.frameLeft = 0) (hq : s.hostOps = []) (hload : s.loaded = true) : step s = .next s := by
  rw [step_freeRunning hl hq hload, beginFrame_of_fault hf, ← hreply]
  rfl

end Sys2Proof.Machine

open Sys2Proof Sys2Proof.Machine

/-- Settles O49: the cycles keep the host's side, and the end of the frame adds the advance or nothing. -/
theorem frameRunsItsBudgetThenAdvancesOnce : Obligations.FrameRunsItsBudgetThenAdvancesOnce := by
  intro s hf hfps
  obtain ⟨u, ht, hu, hkeys, hrate, hclock, -⟩ := frameOf_answers s.budget s
  refine ⟨endFrame u, u, (executeFrame_of_running hf (Nat.ne_of_gt hfps)).trans ht, hu, hkeys, hrate, hclock,
    endFrame_fault u, ?_⟩
  obtain ⟨f, hfault, he⟩ | ⟨hfault, he⟩ := endFrame_cases u
  · rw [he]
    refine ⟨fun g hg => ⟨rfl, rfl, ?reply⟩, fun hnone => ?noFault, SameBut.refl _ _ _ _⟩
    case reply => rw [Option.some.inj (hfault.symm.trans hg)]
    case noFault => simp [hfault] at hnone
  · rw [he]
    refine ⟨fun f hf => ?fault, fun _ => ⟨rfl, rfl, rfl⟩, advanceTimers_sameBut { u with frameLeft := 0, reply := some .ok }⟩
    case fault => simp [hfault] at hf

/-- Settles O50: the first step is the call with the first cycle, each further one a cycle; once halted the
free-running machine stays as it is for the rest of the budget. -/
theorem stepsOfAFrameRefineExecuteFrame : Obligations.StepsOfAFrameRefineExecuteFrame := by
  intro s rest hl
  have hmax : s.budget - 1 + 1 = max (s.cfgClock / s.cfgFps) 1 := by rw [State.budget]; omega
  rw [← hmax]
  refine ⟨fun hq hrun => ?queued, fun hq hload => ?freeRunning⟩
  case queued =>
    have hstep : step s = beginFrame { s with hostOps := rest } :=
      (step_queued hl hq).trans (ifRunnable_of_runnable (s := { s with hostOps := rest }) hrun beginFrame)
    obtain ⟨m, hm, hreach, hall⟩ := beginFrame_reaches { s with hostOps := rest }
    exact ⟨m + 1, Nat.succ_pos m, Nat.succ_le_succ hm, (runSteps_succ m s).trans (hstep ▸ hreach),
      fun t ht hf => congrArg Nat.succ (hall t ht hf)⟩
  case freeRunning =>
    have hstill (t : State) (ht : executeFrame s = .next t) (hf : t.fault ≠ none) : step t = .next t := by
      obtain ⟨f, hf⟩ := Option.ne_none_iff_exists'.mp hf
      obtain ⟨hreply, hload', hops, hleft⟩ := executeFrame_next_of_fault ht hf
      exact step_still_of_fault hf hreply (hleft hl) (hops.trans hq) (hload'.trans hload)
    have hall := (beginFrame_reaches s).in_all hstill
    rw [← step_freeRunning hl hq hload] at hall
    exact (runSteps_succ _ s).trans hall

/-- Settles O51: inside a frame a cycle answers; between frames another frame begins, or nothing happens. -/
theorem freeRunningMachineNeverStops : Obligations.FreeRunningMachineNeverStops := by
  rintro s ⟨hfps, -⟩ hq
  cases hl : s.frameLeft with
  | succ left =>
    obtain ⟨t, hc⟩ := cycle_answers s
    exact ⟨_, (step_inFrame hl).trans (frameCycle_of_cycle hfps hc)⟩
  | zero =>
    cases hload : s.loaded with
    | true => rw [step_freeRunning hl hq hload]; exact beginFrame_answers hfps
    | false => exact ⟨s, by simp [step, sessionMove, hl, hq, hload]⟩

end
